-- ==== Sys2Proof/Word.lean ====
section
/-! DEFINITION. The word types of the machine (spec/10_state.md R30, spec/30_encoding.md R111): every one is
what the spec treats as bits. There is no signed arithmetic (R10). -/

namespace Sys2Proof

/-- A byte: a general register, a timer, a memory cell, an `NN` immediate (R31, R36, R111). -/
abbrev Byte := BitVec 8

/-- A 16-bit register or opcode word: `I`, `PC`, a stack entry, a fetched word (R33, R34, R35). -/
abbrev Word := BitVec 16

/-- A 4-bit register number, the `X` or `Y` field (R111). -/
abbrev Reg := BitVec 4

/-- A 12-bit address immediate, the `NNN` field (R111). -/
abbrev Addr12 := BitVec 12

/-- One frame: 32 rows of 64 pixels; bit `x` of row `y` is pixel `(x, y)` (R42). -/
abbrev Frame := Vector (BitVec 64) 32

/-- The frame with every pixel 0. -/
def Frame.blank : Frame := Vector.replicate 32 0#64

/-- `VF`, the register that also serves as the flag (R32). -/
def Reg.vf : Reg := 0xF#4

/-- A register number is below `NUM_V` = 16. -/
theorem Reg.toNat_lt (r : Reg) : r.toNat < 16 := r.isLt

/-- One bit as a flag byte: 1 or 0. -/
def flagByte (b : Bool) : Byte := if b then 1#8 else 0#8

end Sys2Proof
end

