-- ==== Sys2Proof/Config.lean ====
section
/-! DEFINITION. The configuration the model takes as an argument (spec/00_scope.md R5, R6) and the one free
value of the machine (spec/44_index_memory.md R253). The fixed sizes of R5 (`MEM_SIZE`, `PROG_BASE`, `NUM_V`,
`DISP_W`, `DISP_H`, `NUM_KEYS`, register widths) are in the types and in Machine/Ops.lean. -/

namespace Sys2Proof

/-- `ODD_PC_POLICY` (R84). -/
inductive OddPcPolicy where
  | fault
  | allow
  deriving DecidableEq, Repr

/-- `INVALID_OPCODE_POLICY` (R115). -/
inductive InvalidOpcodePolicy where
  | fatal
  | skip
  deriving DecidableEq, Repr

/-- `SHIFT_SRC`: the register `8XY6` and `8XYE` shift (R149, R151). -/
inductive ShiftSrc where
  | vy
  | vx
  deriving DecidableEq, Repr

/-- `LOGIC_VF_RESET`: whether `8XY1`, `8XY2`, `8XY3` write 0 to `VF` (R144). -/
inductive LogicVfReset where
  | on
  | off
  deriving DecidableEq, Repr

/-- `LDST_I_MODE`: what `FX55` and `FX65` leave in `I` (R262). -/
inductive LdstIMode where
  | incXPlus1
  | incX
  | unchanged
  deriving DecidableEq, Repr

/-- `JUMP_OFFSET_REG`: the register `BNNN` adds (R176). -/
inductive JumpOffsetReg where
  | v0
  | vx
  deriving DecidableEq, Repr

/-- `FX1E_VF`: whether `FX1E` writes an overflow flag (R255). -/
inductive Fx1eVf where
  | unchanged
  | overflowFff
  deriving DecidableEq, Repr

/-- `KEYWAIT_MODE`: whether a held key or only a new press completes a key-wait (R226). -/
inductive KeywaitMode where
  | level
  | pressEdge
  deriving DecidableEq, Repr

/-- The parameters of R5. They are fixed for a whole run; no instruction writes them.
The two rates are rationals where R5 says 'positive real': only their sign is ever read (R373, R400).
DESIGN CHOICE, log 9. -/
structure Config where
  stackDepth    : Nat
  cyclesPerTick : Nat
  cpuFreqHz     : Rat
  timerHz       : Rat
  fontBase      : Nat
  oddPc         : OddPcPolicy
  invalidOpcode : InvalidOpcodePolicy
  shiftSrc      : ShiftSrc
  logicVfReset  : LogicVfReset
  ldstIMode     : LdstIMode
  jumpOffsetReg : JumpOffsetReg
  fx1eVf        : Fx1eVf
  keywaitMode   : KeywaitMode
  deriving DecidableEq, Repr

/-- The reference configuration (R6). -/
def Config.reference : Config where
  stackDepth    := 16
  cyclesPerTick := 14
  cpuFreqHz     := 840
  timerHz       := 60
  fontBase      := 0x000
  oddPc         := .fault
  invalidOpcode := .fatal
  shiftSrc      := .vy
  logicVfReset  := .on
  ldstIMode     := .incXPlus1
  jumpOffsetReg := .v0
  fx1eVf        := .unchanged
  keywaitMode   := .level

/-- The free value: the answer of the Entropy agent to draw number `n`, under no law (R253).
It has no body, so nothing can be proved of its value. DESIGN CHOICE, log 4. -/
opaque Config.freeDraw : Nat → Byte

end Sys2Proof
end

