-- ==== Sys2Proof/Syntax.lean ====
section
/-! DEFINITION. The 34 CHIP-8 instructions, one constructor per row of spec/opcode_table.json
(spec/30_encoding.md R114). Operands are the fields of R111 at their own widths, so every term is encodable. -/

namespace Sys2Proof

/-- The instructions (R114), in the order of the opcode table. -/
inductive Instr where
  /-- `00E0` CLS (R201) -/
  | cls
  /-- `00EE` RET (R178) -/
  | ret
  /-- `1NNN` JP NNN (R175) -/
  | jpNnn (nnn : Addr12)
  /-- `2NNN` CALL NNN (R177) -/
  | callNnn (nnn : Addr12)
  /-- `3XNN` SE VX, NN (R170) -/
  | seVxNn (x : Reg) (nn : Byte)
  /-- `4XNN` SNE VX, NN (R171) -/
  | sneVxNn (x : Reg) (nn : Byte)
  /-- `5XY0` SE VX, VY (R172) -/
  | seVxVy (x y : Reg)
  /-- `6XNN` LD VX, NN (R140) -/
  | ldVxNn (x : Reg) (nn : Byte)
  /-- `7XNN` ADD VX, NN (R142) -/
  | addVxNn (x : Reg) (nn : Byte)
  /-- `8XY0` LD VX, VY (R143) -/
  | ldVxVy (x y : Reg)
  /-- `8XY1` OR VX, VY (R144) -/
  | orVxVy (x y : Reg)
  /-- `8XY2` AND VX, VY (R145) -/
  | andVxVy (x y : Reg)
  /-- `8XY3` XOR VX, VY (R146) -/
  | xorVxVy (x y : Reg)
  /-- `8XY4` ADD VX, VY (R147) -/
  | addVxVy (x y : Reg)
  /-- `8XY5` SUB VX, VY (R148) -/
  | subVxVy (x y : Reg)
  /-- `8XY6` SHR VX, VY (R149) -/
  | shrVxVy (x y : Reg)
  /-- `8XY7` SUBN VX, VY (R150) -/
  | subnVxVy (x y : Reg)
  /-- `8XYE` SHL VX, VY (R151) -/
  | shlVxVy (x y : Reg)
  /-- `9XY0` SNE VX, VY (R173) -/
  | sneVxVy (x y : Reg)
  /-- `ANNN` LD I, NNN (R254) -/
  | ldINnn (nnn : Addr12)
  /-- `BNNN` JP V0, NNN (R176) -/
  | jpV0Nnn (nnn : Addr12)
  /-- `CXNN` RND VX, NN (R252) -/
  | rndVxNn (x : Reg) (nn : Byte)
  /-- `DXYN` DRW VX, VY, N (R202) -/
  | drwVxVyN (x y : Reg) (n : BitVec 4)
  /-- `EX9E` SKP VX (R221) -/
  | skpVx (x : Reg)
  /-- `EXA1` SKNP VX (R222) -/
  | sknpVx (x : Reg)
  /-- `FX07` LD VX, DT (R228) -/
  | ldVxDt (x : Reg)
  /-- `FX0A` LD VX, K (R225) -/
  | ldVxK (x : Reg)
  /-- `FX15` LD DT, VX (R229) -/
  | ldDtVx (x : Reg)
  /-- `FX18` LD ST, VX (R230) -/
  | ldStVx (x : Reg)
  /-- `FX1E` ADD I, VX (R255) -/
  | addIVx (x : Reg)
  /-- `FX29` LD F, VX (R256) -/
  | ldFVx (x : Reg)
  /-- `FX33` LD B, VX (R250) -/
  | ldBVx (x : Reg)
  /-- `FX55` LD [I], VX (R260) -/
  | ldMemVx (x : Reg)
  /-- `FX65` LD VX, [I] (R261) -/
  | ldVxMem (x : Reg)
  deriving DecidableEq, Repr

end Sys2Proof
end

