-- ==== Sys2Proof/WellFormed.lean ====
section
/-! DEFINITION. What a well-formed program text is. An instruction alone has nothing to check: its operands have
the widths of R111. A program text is a list of instructions and of the data directives `DB` and `DW` of
spec/30_encoding.md R118; it is well formed when the loader accepts its size (spec/70_reset_and_hazards.md R371)
and every instruction stands at an address the fetch accepts (R110, R390). -/

namespace Sys2Proof

/-- One line of a program text (R118): an instruction, a data byte `DB NN`, a data word `DW NNNN`. -/
inductive Item where
  | instr (i : Instr)
  | db (b : Byte)
  | dw (w : Word)
  deriving DecidableEq, Repr

/-- How many bytes an item takes (R110, R118). -/
def Item.size : Item → Nat
  | .instr _ => 2
  | .db _ => 1
  | .dw _ => 2

/-- A program text, from address 0x200 on. -/
abbrev Source := List Item

/-- The size of the image of a program text. -/
def Source.size : List Item → Nat
  | [] => 0
  | it :: rest => it.size + Source.size rest

/-- The check R371 makes of an image's size: not empty. -/
def Source.nonEmpty (p : Source) : Bool := 0 < Source.size p

/-- The check R371 makes of an image's size: at most 0xE00 bytes. -/
def Source.fits (p : Source) : Bool := Source.size p ≤ 0xE00

/-- Under `ODD_PC_POLICY` = FAULT every instruction must stand at an even address (R390); `a` is the address of
the first item. -/
def Source.alignedFrom (policy : OddPcPolicy) : Nat → List Item → Bool
  | _, [] => true
  | a, .instr _ :: rest => (policy == .allow || a % 2 == 0) && Source.alignedFrom policy (a + 2) rest
  | a, .db _ :: rest => Source.alignedFrom policy (a + 1) rest
  | a, .dw _ :: rest => Source.alignedFrom policy (a + 2) rest

/-- A program text the loader accepts and whose instructions can be fetched. -/
def Source.wf (policy : OddPcPolicy) (p : Source) : Bool :=
  Source.nonEmpty p && Source.fits p && Source.alignedFrom policy 0x200 p

end Sys2Proof
end

