-- ==== Sys2Proof/Decode.lean ====
section
/-! DEFINITION. Decoding and encoding (spec/30_encoding.md R110 to R117, R82). The decoder is total on bytes and on
words and rejects by name; the encoder is written from the same table (R114). -/

namespace Sys2Proof

/-- Why bytes are no instruction: fewer than two bytes, or one of the six rows of R115's table of invalid words. -/
inductive DecodeReject where
  /-- fewer than two bytes are left (R110: a decoder always consumes 2 bytes) -/
  | truncated
  /-- `0NNN` other than `00E0` and `00EE` -/
  | class0
  /-- `5XYN` with N ≠ 0 -/
  | class5
  /-- `8XYN` with N in 8..D or F -/
  | class8
  /-- `9XYN` with N ≠ 0 -/
  | class9
  /-- `EXNN` with NN other than 9E and A1 -/
  | classE
  /-- `FXNN` with NN outside the nine listed codes -/
  | classF
  deriving DecidableEq, Repr

/-- What a decoder answers: a value, or the name of the rejection. -/
inductive Decoded (α : Type) where
  | ok (a : α)
  | reject (r : DecodeReject)
  deriving DecidableEq, Repr

/-! ### Fields (R111) -/

/-- `C`, op[15:12] -/
def fieldC (op : Word) : BitVec 4 := op.extractLsb' 12 4
/-- `X`, op[11:8] -/
def fieldX (op : Word) : Reg := op.extractLsb' 8 4
/-- `Y`, op[7:4] -/
def fieldY (op : Word) : Reg := op.extractLsb' 4 4
/-- `N`, op[3:0] -/
def fieldN (op : Word) : BitVec 4 := op.extractLsb' 0 4
/-- `NN`, op[7:0] -/
def fieldNN (op : Word) : Byte := op.extractLsb' 0 8
/-- `NNN`, op[11:0] -/
def fieldNNN (op : Word) : Addr12 := op.extractLsb' 0 12

/-- Class 8: the sub-function `N` selects (R114, R115). -/
def decode8 (x y : Reg) (n : BitVec 4) : Decoded Instr :=
  match n.toNat with
  | 0x0 => .ok (.ldVxVy x y)
  | 0x1 => .ok (.orVxVy x y)
  | 0x2 => .ok (.andVxVy x y)
  | 0x3 => .ok (.xorVxVy x y)
  | 0x4 => .ok (.addVxVy x y)
  | 0x5 => .ok (.subVxVy x y)
  | 0x6 => .ok (.shrVxVy x y)
  | 0x7 => .ok (.subnVxVy x y)
  | 0xE => .ok (.shlVxVy x y)
  | _ => .reject .class8

/-- Class E: `NN` selects (R114, R115). -/
def decodeE (x : Reg) (nn : Byte) : Decoded Instr :=
  match nn.toNat with
  | 0x9E => .ok (.skpVx x)
  | 0xA1 => .ok (.sknpVx x)
  | _ => .reject .classE

/-- Class F: `NN` selects (R114, R115). -/
def decodeF (x : Reg) (nn : Byte) : Decoded Instr :=
  match nn.toNat with
  | 0x07 => .ok (.ldVxDt x)
  | 0x0A => .ok (.ldVxK x)
  | 0x15 => .ok (.ldDtVx x)
  | 0x18 => .ok (.ldStVx x)
  | 0x1E => .ok (.addIVx x)
  | 0x29 => .ok (.ldFVx x)
  | 0x33 => .ok (.ldBVx x)
  | 0x55 => .ok (.ldMemVx x)
  | 0x65 => .ok (.ldVxMem x)
  | _ => .reject .classF

/-- Class 0: the whole word (R114, R116). -/
def decode0 (op : Word) : Decoded Instr :=
  if op = 0x00E0#16 then .ok .cls
  else if op = 0x00EE#16 then .ok .ret
  else .reject .class0

/-- `Decode(op)` (R114): every word is exactly one instruction or invalid. -/
def decodeWord (op : Word) : Decoded Instr :=
  let x := fieldX op
  let y := fieldY op
  let n := fieldN op
  let nn := fieldNN op
  let nnn := fieldNNN op
  match (fieldC op).toNat with
  | 0x0 => decode0 op
  | 0x1 => .ok (.jpNnn nnn)
  | 0x2 => .ok (.callNnn nnn)
  | 0x3 => .ok (.seVxNn x nn)
  | 0x4 => .ok (.sneVxNn x nn)
  | 0x5 => if n = 0#4 then .ok (.seVxVy x y) else .reject .class5
  | 0x6 => .ok (.ldVxNn x nn)
  | 0x7 => .ok (.addVxNn x nn)
  | 0x8 => decode8 x y n
  | 0x9 => if n = 0#4 then .ok (.sneVxVy x y) else .reject .class9
  | 0xA => .ok (.ldINnn nnn)
  | 0xB => .ok (.jpV0Nnn nnn)
  | 0xC => .ok (.rndVxNn x nn)
  | 0xD => .ok (.drwVxVyN x y n)
  | 0xE => decodeE x nn
  | _ => decodeF x nn

/-- The opcode word of two bytes in memory order: big-endian (R82). -/
def wordOfBytes (hi lo : Byte) : Word := hi ++ lo

/-- The two bytes of a word in memory order (R82). -/
def bytesOfWord (w : Word) : List Byte := [w.extractLsb' 8 8, w.extractLsb' 0 8]

/-- Decoding bytes in memory order: the instruction and the bytes after it, or the name of the rejection.
Two bytes are consumed always (R110, R117). -/
def decode : List Byte → Decoded (Instr × List Byte)
  | hi :: lo :: rest =>
    match decodeWord (wordOfBytes hi lo) with
    | .ok i => .ok (i, rest)
    | .reject r => .reject r
  | _ => .reject .truncated

/-! ### The encoder -/

/-- A word of class, two registers and a nibble: `C X Y N`. -/
def wordXYN (c : BitVec 4) (x y : Reg) (n : BitVec 4) : Word := ((c ++ x : Byte) ++ (y ++ n : Byte) : Word)
/-- A word of class, register and byte: `C X NN`. -/
def wordXNn (c : BitVec 4) (x : Reg) (nn : Byte) : Word := ((c ++ x : Byte) ++ nn : Word)
/-- A word of class and address: `C NNN`. -/
def wordNnn (c : BitVec 4) (nnn : Addr12) : Word := (c ++ nnn : Word)

/-- The word of an instruction (R114). -/
def encode : Instr → Word
  | .cls => 0x00E0#16
  | .ret => 0x00EE#16
  | .jpNnn nnn => wordNnn 0x1#4 nnn
  | .callNnn nnn => wordNnn 0x2#4 nnn
  | .seVxNn x nn => wordXNn 0x3#4 x nn
  | .sneVxNn x nn => wordXNn 0x4#4 x nn
  | .seVxVy x y => wordXYN 0x5#4 x y 0x0#4
  | .ldVxNn x nn => wordXNn 0x6#4 x nn
  | .addVxNn x nn => wordXNn 0x7#4 x nn
  | .ldVxVy x y => wordXYN 0x8#4 x y 0x0#4
  | .orVxVy x y => wordXYN 0x8#4 x y 0x1#4
  | .andVxVy x y => wordXYN 0x8#4 x y 0x2#4
  | .xorVxVy x y => wordXYN 0x8#4 x y 0x3#4
  | .addVxVy x y => wordXYN 0x8#4 x y 0x4#4
  | .subVxVy x y => wordXYN 0x8#4 x y 0x5#4
  | .shrVxVy x y => wordXYN 0x8#4 x y 0x6#4
  | .subnVxVy x y => wordXYN 0x8#4 x y 0x7#4
  | .shlVxVy x y => wordXYN 0x8#4 x y 0xE#4
  | .sneVxVy x y => wordXYN 0x9#4 x y 0x0#4
  | .ldINnn nnn => wordNnn 0xA#4 nnn
  | .jpV0Nnn nnn => wordNnn 0xB#4 nnn
  | .rndVxNn x nn => wordXNn 0xC#4 x nn
  | .drwVxVyN x y n => wordXYN 0xD#4 x y n
  | .skpVx x => wordXNn 0xE#4 x 0x9E#8
  | .sknpVx x => wordXNn 0xE#4 x 0xA1#8
  | .ldVxDt x => wordXNn 0xF#4 x 0x07#8
  | .ldVxK x => wordXNn 0xF#4 x 0x0A#8
  | .ldDtVx x => wordXNn 0xF#4 x 0x15#8
  | .ldStVx x => wordXNn 0xF#4 x 0x18#8
  | .addIVx x => wordXNn 0xF#4 x 0x1E#8
  | .ldFVx x => wordXNn 0xF#4 x 0x29#8
  | .ldBVx x => wordXNn 0xF#4 x 0x33#8
  | .ldMemVx x => wordXNn 0xF#4 x 0x55#8
  | .ldVxMem x => wordXNn 0xF#4 x 0x65#8

/-- The two bytes of an instruction in memory order (R82, R110). -/
def encodeBytes (i : Instr) : List Byte := bytesOfWord (encode i)

/-- The bytes of one line of a program text (R118: `DW` is big-endian). -/
def Item.bytes : Item → List Byte
  | .instr i => encodeBytes i
  | .db b => [b]
  | .dw w => bytesOfWord w

/-- The image of a program text, the first byte for address 0x200 (R371). -/
def Source.image (p : Source) : List Byte := p.flatMap Item.bytes

/-! ### The opcode table as data (R114) -/

/-- One row: the words `w` with `w &&& mask = pattern`. -/
structure OpcodeRow where
  pattern : Word
  mask    : Word
  deriving DecidableEq, Repr

/-- Whether a word matches a row. -/
def OpcodeRow.matchesWord (r : OpcodeRow) (w : Word) : Bool := w &&& r.mask == r.pattern

/-- The row of each instruction. -/
def Instr.row : Instr → OpcodeRow
  | .cls => ⟨0x00E0#16, 0xFFFF#16⟩
  | .ret => ⟨0x00EE#16, 0xFFFF#16⟩
  | .jpNnn _ => ⟨0x1000#16, 0xF000#16⟩
  | .callNnn _ => ⟨0x2000#16, 0xF000#16⟩
  | .seVxNn _ _ => ⟨0x3000#16, 0xF000#16⟩
  | .sneVxNn _ _ => ⟨0x4000#16, 0xF000#16⟩
  | .seVxVy _ _ => ⟨0x5000#16, 0xF00F#16⟩
  | .ldVxNn _ _ => ⟨0x6000#16, 0xF000#16⟩
  | .addVxNn _ _ => ⟨0x7000#16, 0xF000#16⟩
  | .ldVxVy _ _ => ⟨0x8000#16, 0xF00F#16⟩
  | .orVxVy _ _ => ⟨0x8001#16, 0xF00F#16⟩
  | .andVxVy _ _ => ⟨0x8002#16, 0xF00F#16⟩
  | .xorVxVy _ _ => ⟨0x8003#16, 0xF00F#16⟩
  | .addVxVy _ _ => ⟨0x8004#16, 0xF00F#16⟩
  | .subVxVy _ _ => ⟨0x8005#16, 0xF00F#16⟩
  | .shrVxVy _ _ => ⟨0x8006#16, 0xF00F#16⟩
  | .subnVxVy _ _ => ⟨0x8007#16, 0xF00F#16⟩
  | .shlVxVy _ _ => ⟨0x800E#16, 0xF00F#16⟩
  | .sneVxVy _ _ => ⟨0x9000#16, 0xF00F#16⟩
  | .ldINnn _ => ⟨0xA000#16, 0xF000#16⟩
  | .jpV0Nnn _ => ⟨0xB000#16, 0xF000#16⟩
  | .rndVxNn _ _ => ⟨0xC000#16, 0xF000#16⟩
  | .drwVxVyN _ _ _ => ⟨0xD000#16, 0xF000#16⟩
  | .skpVx _ => ⟨0xE09E#16, 0xF0FF#16⟩
  | .sknpVx _ => ⟨0xE0A1#16, 0xF0FF#16⟩
  | .ldVxDt _ => ⟨0xF007#16, 0xF0FF#16⟩
  | .ldVxK _ => ⟨0xF00A#16, 0xF0FF#16⟩
  | .ldDtVx _ => ⟨0xF015#16, 0xF0FF#16⟩
  | .ldStVx _ => ⟨0xF018#16, 0xF0FF#16⟩
  | .addIVx _ => ⟨0xF01E#16, 0xF0FF#16⟩
  | .ldFVx _ => ⟨0xF029#16, 0xF0FF#16⟩
  | .ldBVx _ => ⟨0xF033#16, 0xF0FF#16⟩
  | .ldMemVx _ => ⟨0xF055#16, 0xF0FF#16⟩
  | .ldVxMem _ => ⟨0xF065#16, 0xF0FF#16⟩

/-- Rows `00E0` to `8XY3` of R114, in its order. -/
def opcodeRowsA : List OpcodeRow := [
  ⟨0x00E0#16, 0xFFFF#16⟩,
  ⟨0x00EE#16, 0xFFFF#16⟩,
  ⟨0x1000#16, 0xF000#16⟩,
  ⟨0x2000#16, 0xF000#16⟩,
  ⟨0x3000#16, 0xF000#16⟩,
  ⟨0x4000#16, 0xF000#16⟩,
  ⟨0x5000#16, 0xF00F#16⟩,
  ⟨0x6000#16, 0xF000#16⟩,
  ⟨0x7000#16, 0xF000#16⟩,
  ⟨0x8000#16, 0xF00F#16⟩,
  ⟨0x8001#16, 0xF00F#16⟩,
  ⟨0x8002#16, 0xF00F#16⟩,
  ⟨0x8003#16, 0xF00F#16⟩]

/-- Rows `8XY4` to `EXA1` of R114, in its order. -/
def opcodeRowsB : List OpcodeRow := [
  ⟨0x8004#16, 0xF00F#16⟩,
  ⟨0x8005#16, 0xF00F#16⟩,
  ⟨0x8006#16, 0xF00F#16⟩,
  ⟨0x8007#16, 0xF00F#16⟩,
  ⟨0x800E#16, 0xF00F#16⟩,
  ⟨0x9000#16, 0xF00F#16⟩,
  ⟨0xA000#16, 0xF000#16⟩,
  ⟨0xB000#16, 0xF000#16⟩,
  ⟨0xC000#16, 0xF000#16⟩,
  ⟨0xD000#16, 0xF000#16⟩,
  ⟨0xE09E#16, 0xF0FF#16⟩,
  ⟨0xE0A1#16, 0xF0FF#16⟩]

/-- Rows `FX07` to `FX65` of R114, in its order. -/
def opcodeRowsC : List OpcodeRow := [
  ⟨0xF007#16, 0xF0FF#16⟩,
  ⟨0xF00A#16, 0xF0FF#16⟩,
  ⟨0xF015#16, 0xF0FF#16⟩,
  ⟨0xF018#16, 0xF0FF#16⟩,
  ⟨0xF01E#16, 0xF0FF#16⟩,
  ⟨0xF029#16, 0xF0FF#16⟩,
  ⟨0xF033#16, 0xF0FF#16⟩,
  ⟨0xF055#16, 0xF0FF#16⟩,
  ⟨0xF065#16, 0xF0FF#16⟩]

/-- The 34 rows of R114. -/
def opcodeTable : List OpcodeRow := opcodeRowsA ++ opcodeRowsB ++ opcodeRowsC

/-- The decoder's answer to a word given as the opcode table numbers its bits: the word is the whole instruction,
its bits above `nbits` zero, and its bytes are laid out as R82 says. -/
def decodeTableWord (nbits w : Nat) : Option Instr :=
  match decode (bytesOfWord (BitVec.ofNat 16 (w % 2 ^ nbits))) with
  | .ok (i, _) => some i
  | .reject _ => none

end Sys2Proof
end

