-- ==== Sys2Proof/Machine/State.lean ====
section
/-! DEFINITION. The complete state of the block (spec/10_state.md R30) as plain data, with its reset value
(R54, spec/70_reset_and_hazards.md R370). The last two fields are the model's own: the configuration, which R5 has
the model take as an argument, and what the other agents do next. -/

namespace Sys2Proof.Machine

/-- `RUNSTATE` (R38). -/
inductive RunState where
  | unloaded
  | running
  | halted
  deriving DecidableEq, Repr

/-- `SCHED`, the state of the Scheduler FSM (R46). -/
inductive Sched where
  | sleep
  | batch
  | timer
  | exit
  deriving DecidableEq, Repr

/-- `FAULT_CODE` (R39): the values 0 to 4; 5 to 7 never occur. -/
inductive FaultCode where
  | none
  | memoryOutOfBounds
  | stackOverflow
  | stackUnderflow
  | invalidOpcode
  deriving DecidableEq, Repr

/-- `raise Fault(code, addr)` of R12 and R300. Each is RAISED inside an Interpreter step and TAKEN by the same
step (R305): a next state, never a `Host.Outcome.fault`. So no step of this model answers a fault. Log 5. -/
inductive Fault where
  /-- Raised by the fetch and by `DXYN`, `FX33`, `FX55`, `FX65`; `addr` is the lowest out-of-range address (R301).
  Safe: taken as the spec says. -/
  | memoryOutOfBounds (addr : BitVec 17)
  /-- Raised by `2NNN` with a full stack (R302). Safe: taken as the spec says. -/
  | stackOverflow
  /-- Raised by `00EE` with an empty stack (R303). Safe: taken as the spec says. -/
  | stackUnderflow
  /-- Raised by the decode of an invalid word under `INVALID_OPCODE_POLICY` = FATAL (R304). Safe: taken as the spec
  says. -/
  | invalidOpcode
  deriving DecidableEq, Repr

/-- Why a step could be refused. -/
inductive Refusal where
  /-- Raised by an arm of `exec` that has no meaning yet; safe. No arm of this model is so. -/
  | notModelled (mnemonic : String)
  deriving DecidableEq, Repr

/-- The fault record registers (R39). -/
structure FaultRecord where
  /-- `FAULT_CODE` -/
  code : FaultCode
  /-- `FAULT_PC` -/
  pc   : Word
  /-- `FAULT_OP` -/
  op   : Word
  /-- `FAULT_ADDR` -/
  addr : BitVec 17
  deriving DecidableEq, Repr

/-- The fault record at reset: all 0 (R54). -/
def FaultRecord.clear : FaultRecord := ⟨.none, 0#16, 0#16, 0#17⟩

/-- The key-wait sub-state (R37). -/
structure KeyWait where
  /-- `WAIT` -/
  active : Bool
  /-- `WAIT_X` -/
  x      : Reg
  /-- `WAIT_PREV` -/
  prev   : Word
  deriving DecidableEq, Repr

/-- The key-wait registers at reset: all 0 (R54). -/
def KeyWait.clear : KeyWait := ⟨false, 0#4, 0#16⟩

/-- One move of one agent (spec/00_scope.md R7). A move that its rule does not enable changes nothing. Log 2, log 3. -/
inductive Move where
  /-- Core: one Scheduler transition out of BATCH or TIMER (R320). -/
  | core
  /-- TickSource: one `cpu_tick`, consumed by the SLEEP transition (R321). -/
  | tick
  /-- TimerSource: one `timer_tick` strobe (R330). -/
  | timerTick
  /-- InputSync: copies key `k` from `KU` to `KP` (R241). -/
  | inputSync (k : BitVec 4)
  /-- SnapCapture: captures `FB` for a pending request (R211). -/
  | snapCapture
  /-- UI host: `Set(key, pressed)` (R240). -/
  | setKey (k : BitVec 4) (pressed : Bool)
  /-- UI host: `SnapshotRequest()` (R211). -/
  | snapshotRequest
  /-- UI host, or the host generally: `Trip()` (R340). -/
  | trip
  /-- Loader host: the parameters are fixed, before `Load` (R48 IF_CFG, R373). -/
  | configure (c : Config)
  /-- Loader host: `Load(image)` (R371). -/
  | load (image : List Byte)
  /-- The start of a new run (R370). -/
  | reset
  deriving DecidableEq, Repr

/-- What the agents outside the Core do next, in order: the model's own data, an input of the machine. Log 2, log 4. -/
structure Env where
  /-- the moves to come -/
  agenda  : List Move
  /-- the Entropy agent's answers to come (R253) -/
  answers : List Byte
  /-- how many draws have been answered by the free value `Config.freeDraw` -/
  draws   : Nat
  deriving DecidableEq, Repr

/-- Memory: the cells that do not hold 0, at rising addresses (R41; an unlisted address reads 0, R54). -/
abbrev Memory := List Host.Cell

/-- The complete state of the block (R30). -/
structure State where
  /-- `MEM` (R41) -/
  mem          : Memory
  /-- `V[0..15]` (R31) -/
  v            : Vector Byte 16
  /-- `I` (R33) -/
  i            : Word
  /-- `PC` (R34) -/
  pc           : Word
  /-- `SP`, entries in use (R35) -/
  sp           : Nat
  /-- `STACK[0..STACK_DEPTH-1]` (R35) -/
  stack        : List Word
  /-- `DT` (R36) -/
  dt           : Byte
  /-- `ST` (R36) -/
  st           : Byte
  /-- `WAIT`, `WAIT_X`, `WAIT_PREV` (R37) -/
  wait         : KeyWait
  /-- `RUNSTATE` (R38) -/
  run          : RunState
  /-- `FAULT_CODE`, `FAULT_PC`, `FAULT_OP`, `FAULT_ADDR` (R39) -/
  fault        : FaultRecord
  /-- `INVALID_SEEN` (R40) -/
  invalidSeen  : Bool
  /-- `FB` (R42) -/
  fb           : Frame
  /-- `SNAP` (R43) -/
  snap         : Frame
  /-- `SNAP_REQ` (R43) -/
  snapReq      : Bool
  /-- `KU` (R44) -/
  ku           : Word
  /-- `KP` (R44) -/
  kp           : Word
  /-- `FUSE` (R45) -/
  fuse         : Bool
  /-- `SCHED` (R46) -/
  sched        : Sched
  /-- `BATCH_LEFT` (R46) -/
  batchLeft    : Nat
  /-- `TIMER_PENDING` (R47) -/
  timerPending : Byte
  /-- the configuration (R5); the model's own field, log 1 -/
  cfg          : Config
  /-- what the other agents do next; the model's own field, log 2 -/
  env          : Env
  deriving DecidableEq, Repr

/-- Every element at its value after reset, before `Load` (R54), under configuration `c` and with the outside
world `e` still to come. -/
def State.resetUnder (c : Config) (e : Env) : State where
  mem          := []
  v            := Vector.replicate 16 0#8
  i            := 0#16
  pc           := 0x200#16
  sp           := 0
  stack        := List.replicate c.stackDepth 0#16
  dt           := 0#8
  st           := 0#8
  wait         := KeyWait.clear
  run          := .unloaded
  fault        := FaultRecord.clear
  invalidSeen  := false
  fb           := Frame.blank
  snap         := Frame.blank
  snapReq      := false
  ku           := 0#16
  kp           := 0#16
  fuse         := false
  sched        := .sleep
  batchLeft    := 0
  timerPending := 0#8
  cfg          := c
  env          := e

/-- The machine right after reset (R54, R370): UNLOADED, no program. The configuration is the reference one (R6) and
nothing of the outside world is listed: DESIGN CHOICE, log 1, log 2, log 4. -/
def State.reset : State :=
  State.resetUnder Config.reference { agenda := [], answers := [], draws := 0 }

end Sys2Proof.Machine
end

