-- ==== Sys2Proof/Machine/Ops.lean ====
section
/-! DEFINITION. The named operations over memory, registers, the return stack and the fault record, shared by every
meaning (spec/20_memory.md R81 to R87, spec/10_state.md R31 to R39, spec/60_exceptions.md R305). -/

namespace Sys2Proof.Machine

/-! ### Memory (R81, R87) -/

/-- `InRange(a)` of R81; an address is an unbounded number. -/
def inRange (a : Nat) : Bool := a ≤ 0xFFF

/-- The byte at an address: what the list holds, else 0 (R54: `MEM` is 0 at reset). -/
def Memory.get : List Host.Cell → Nat → Byte
  | [], _ => 0#8
  | (b, w) :: rest, a => if b = a then w else Memory.get rest a

/-- Puts a byte at an address and keeps the list in its canonical form: rising addresses, no zero cell. -/
def Memory.put : List Host.Cell → Nat → Byte → List Host.Cell
  | [], a, x => if x = 0#8 then [] else [(a, x)]
  | (b, w) :: rest, a, x =>
    if a < b then (if x = 0#8 then (b, w) :: rest else (a, x) :: (b, w) :: rest)
    else if a = b then (if x = 0#8 then rest else (a, x) :: rest)
    else (b, w) :: Memory.put rest a x

/-- A byte write. Outside 0x000..0xFFF there is no cell, so nothing changes; no instruction gets there, since each
checks its range before it writes (R81). Log 12. -/
def Memory.write (m : Memory) (a : Nat) (x : Byte) : Memory :=
  if inRange a then Memory.put m a x else m

/-- The canonical form, with every cell above `lo`: rising addresses up to 0xFFF, no zero cell. -/
def Memory.wfAbove : Option Nat → List Host.Cell → Bool
  | _, [] => true
  | lo, (a, x) :: rest =>
    (match lo with
     | none => true
     | some b => b < a) && inRange a && x != 0#8 && Memory.wfAbove (some a) rest

/-- The canonical form of memory, so that equal memories are equal data. -/
def Memory.wf (m : Memory) : Bool := Memory.wfAbove none m

/-- Bytes put one after another from an address on. -/
def Memory.writeBytes : Memory → Nat → List Byte → Memory
  | m, _, [] => m
  | m, a, x :: xs => Memory.writeBytes (m.write a x) (a + 1) xs

/-- `MEM[a]`. -/
def State.readByte (s : State) (a : Nat) : Byte := Memory.get s.mem a

/-- `MemWrite(a, 1, x)` of an address the caller has checked (R81). -/
def State.writeByte (s : State) (a : Nat) (x : Byte) : State := { s with mem := s.mem.write a x }

/-- The range check of an access of `n` bytes from `base` (R81): the fault it raises, with the lowest out-of-range
address, or none. With `n` = 0 nothing is touched. -/
def rangeFault (base n : Nat) : Option Fault :=
  if 0 < n ∧ 0xFFF < base + n - 1 then some (.memoryOutOfBounds (BitVec.ofNat 17 (max base 0x1000)))
  else none

/-! ### General registers (R31) -/

/-- `V[r]`. -/
def State.getV (s : State) (r : Reg) : Byte := s.v[r.toNat]'r.toNat_lt

/-- `V[r] <- b`. -/
def State.setV (s : State) (r : Reg) (b : Byte) : State := { s with v := s.v.set r.toNat b r.toNat_lt }

/-- `I <- w` (R33). -/
def State.setI (s : State) (w : Word) : State := { s with i := w }

/-! ### Program counter (R34, R113) -/

/-- The address of the instruction after this one: what `PC` holds while it executes (R113). -/
def State.nextPc (s : State) : Word := s.pc + 2#16

/-- `PC <- w`. -/
def State.setPc (s : State) (w : Word) : State := { s with pc := w }

/-- The advance by 2 before dispatch (R113). -/
def State.advance (s : State) : State := s.setPc s.nextPc

/-- The advance, and a further 2 when a skip is taken (R113, R170). -/
def State.skipIf (s : State) (c : Bool) : State := if c then s.setPc (s.nextPc + 2#16) else s.advance

/-! ### The return stack (R35) -/

/-- `STACK[SP] <- w; SP <- SP + 1`, for a stack that is not full. -/
def State.push (s : State) (w : Word) : State := { s with stack := s.stack.set s.sp w, sp := s.sp + 1 }

/-- `STACK[k]`. An index past the array reads 0; no reachable state has one (log 19). -/
def State.stackAt (s : State) (k : Nat) : Word := s.stack.getD k 0#16

/-- `SP <- SP - 1`, for a stack that is not empty; the entry keeps its value (R35). -/
def State.pop (s : State) : State := { s with sp := s.sp - 1 }

/-! ### Fetch (R82, R84, R113) -/

/-- The bytes at `PC` and `PC + 1`, in memory order. -/
def State.fetchBytes (s : State) : List Byte := [s.readByte s.pc.toNat, s.readByte (s.pc.toNat + 1)]

/-- The opcode word at `PC`: `MEM[PC] ++ MEM[PC+1]`. -/
def State.fetchedWord (s : State) : Word := wordOfBytes (s.readByte s.pc.toNat) (s.readByte (s.pc.toNat + 1))

/-- The three fetch checks in the order of R113 and R309. -/
def State.fetchFault (s : State) : Option Fault :=
  let pc0 := s.pc.toNat
  if 0xFFF < pc0 then some (.memoryOutOfBounds (BitVec.ofNat 17 pc0))
  else if 0xFFF < pc0 + 1 then some (.memoryOutOfBounds (BitVec.ofNat 17 (pc0 + 1)))
  else if pc0 % 2 = 1 ∧ s.cfg.oddPc = .fault then some (.memoryOutOfBounds (BitVec.ofNat 17 pc0))
  else none

/-! ### Taking a fault (R305, R306) -/

/-- `FAULT_CODE` of a fault (R300). -/
def Fault.code : Fault → FaultCode
  | .memoryOutOfBounds _ => .memoryOutOfBounds
  | .stackOverflow => .stackOverflow
  | .stackUnderflow => .stackUnderflow
  | .invalidOpcode => .invalidOpcode

/-- `FAULT_ADDR` of a fault: the address for `MemoryOutOfBounds`, 0 for the others (R305). -/
def Fault.recordedAddr : Fault → BitVec 17
  | .memoryOutOfBounds a => a
  | .stackOverflow => 0#17
  | .stackUnderflow => 0#17
  | .invalidOpcode => 0#17

/-- The only kind of trap entry (R305): the record is written and `RUNSTATE` becomes HALTED; nothing else changes
(R306). `s` is the state before the step, so `s.pc` is the faulting instruction's address. -/
def State.takeFault (s : State) (f : Fault) (op : Word) : State :=
  { s with fault := ⟨f.code, s.pc, op, f.recordedAddr⟩, run := .halted }

/-- A fault raised after the fetch: `FAULT_OP` is the fetched word (R305). The step's outcome is a next state. -/
def raise (f : Fault) (s : State) : Host.Outcome State Fault Refusal := .next (s.takeFault f s.fetchedWord)

/-- Runs `k` unless the check before it raises (every instruction checks before its first write, R306). -/
def orRaise (check : Option Fault) (s : State) (k : State) : Host.Outcome State Fault Refusal :=
  match check with
  | some f => raise f s
  | none => .next k

/-- What follows a step that answers a next state. -/
def onNext (o : Host.Outcome State Fault Refusal) (k : State → State) : Host.Outcome State Fault Refusal :=
  match o with
  | .next s => .next (k s)
  | .fault f => .fault f
  | .refused r => .refused r

/-! ### Entropy (R253) -/

/-- The byte `rand8()` answers: the Entropy agent's next answer, or a free value where none is listed. -/
def State.drawnByte (s : State) : Byte :=
  match s.env.answers with
  | b :: _ => b
  | [] => Config.freeDraw s.env.draws

/-- The state after a draw: the answer is used up, so the next draw is a fresh one. -/
def State.afterDraw (s : State) : State :=
  match s.env.answers with
  | _ :: rest => { s with env := { s.env with answers := rest } }
  | [] => { s with env := { s.env with draws := s.env.draws + 1 } }

/-! ### Bits of the key registers (R44) -/

/-- Bit `k` of a 16-bit register. -/
def keyBit (w : Word) (k : BitVec 4) : Bool := w.getLsbD k.toNat

/-- A 16-bit register with bit `k` set to `b`. -/
def withKeyBit (w : Word) (k : BitVec 4) (b : Bool) : Word :=
  if b then w ||| BitVec.twoPow 16 k.toNat else w &&& ~~~(BitVec.twoPow 16 k.toNat)

end Sys2Proof.Machine
end

