-- ==== Sys2Proof/Machine/Operands.lean ====
section
/-! DEFINITION. Every operand form the instructions have beyond a plain register or immediate: the options of
spec/00_scope.md R5 that choose an operand, and the `I`-relative accesses (spec/30_encoding.md R112). -/

namespace Sys2Proof.Machine

/-- An address immediate, zero-extended (R112). -/
def addrOf (nnn : Addr12) : Word := nnn.setWidth 16

/-- The byte `8XY6` and `8XYE` shift: `SHIFT_SRC` chooses `V[Y]` or `V[X]` (R149, R151). -/
def State.shiftSource (s : State) (x y : Reg) : Byte :=
  match s.cfg.shiftSrc with
  | .vy => s.getV y
  | .vx => s.getV x

/-- The register `BNNN` adds: `V0`, or `VX` with X = NNN[11:8] (R176). -/
def State.jumpRegister (s : State) (nnn : Addr12) : Reg :=
  match s.cfg.jumpOffsetReg with
  | .v0 => 0#4
  | .vx => nnn.extractLsb' 8 4

/-- The target of `BNNN`: NNN + V[r], at most 0x10FE (R176). -/
def State.jumpTarget (s : State) (nnn : Addr12) : Word :=
  addrOf nnn + (s.getV (s.jumpRegister nnn)).setWidth 16

/-- The number in the low nibble of a register: a key (R223) or a font digit (R256). -/
def State.lowNibble (s : State) (x : Reg) : BitVec 4 := (s.getV x).extractLsb' 0 4

/-- The address of the font sprite of the digit in `V[X]`: `FONT_BASE` + 5 * digit (R256). -/
def State.fontAddress (s : State) (x : Reg) : Word := BitVec.ofNat 16 (s.cfg.fontBase + 5 * (s.lowNibble x).toNat)

/-- `I + V[X]` as a number, 0 to 0x100FE (R255). -/
def State.indexSum (s : State) (x : Reg) : Nat := s.i.toNat + (s.getV x).toNat

/-- The number of registers `FX55` and `FX65` move: V0 to VX (R260, R261). -/
def blockCount (x : Reg) : Nat := x.toNat + 1

/-- `IAfterBlock(I, X)` (R262). -/
def State.indexAfterBlock (s : State) (x : Reg) : Word :=
  match s.cfg.ldstIMode with
  | .incXPlus1 => BitVec.ofNat 16 (s.i.toNat + x.toNat + 1)
  | .incX => BitVec.ofNat 16 (s.i.toNat + x.toNat)
  | .unchanged => s.i

/-- The decimal digits of a byte: hundreds, tens, ones (R250). -/
def bcdDigits (b : Byte) : List Byte :=
  [BitVec.ofNat 8 (b.toNat / 100), BitVec.ofNat 8 (b.toNat / 10 % 10), BitVec.ofNat 8 (b.toNat % 10)]

/-- Memory after `V[0]` to `V[n-1]` are stored from `base` on, in that order (R260). -/
def State.storedBlock (s : State) (base : Nat) : Nat → Memory
  | 0 => s.mem
  | n + 1 => (s.storedBlock base n).write (base + n) (s.getV (BitVec.ofNat 4 n))

/-- The state after `V[0]` to `V[n-1]` are loaded from `base` on, in that order (R261). -/
def State.loadedBlock (s : State) (base : Nat) : Nat → State
  | 0 => s
  | n + 1 => (s.loadedBlock base n).setV (BitVec.ofNat 4 n) (s.readByte (base + n))

/-- The start column of a sprite: V[X] mod 64 (R204). -/
def State.startColumn (s : State) (x : Reg) : Nat := (s.getV x).toNat % 64

/-- The start row of a sprite: V[Y] mod 32 (R204). -/
def State.startRow (s : State) (y : Reg) : Nat := (s.getV y).toNat % 32

end Sys2Proof.Machine
end

