-- ==== Sys2Proof/Machine/ControlFlow.lean ====
section
/-! DEFINITION. The skips, jumps, call and return (spec/41_control_flow.md). A target is not checked when it is
written; the next fetch checks it (R174). -/

namespace Sys2Proof.Machine

/-- `3XNN` (R170) -/
def execSeVxNn (x : Reg) (nn : Byte) (s : State) : Host.Outcome State Fault Refusal :=
  .next (s.skipIf (s.getV x == nn))

/-- `4XNN` (R171) -/
def execSneVxNn (x : Reg) (nn : Byte) (s : State) : Host.Outcome State Fault Refusal :=
  .next (s.skipIf (s.getV x != nn))

/-- `5XY0` (R172) -/
def execSeVxVy (x y : Reg) (s : State) : Host.Outcome State Fault Refusal :=
  .next (s.skipIf (s.getV x == s.getV y))

/-- `9XY0` (R173) -/
def execSneVxVy (x y : Reg) (s : State) : Host.Outcome State Fault Refusal :=
  .next (s.skipIf (s.getV x != s.getV y))

/-- `1NNN` (R175) -/
def execJpNnn (nnn : Addr12) (s : State) : Host.Outcome State Fault Refusal :=
  .next (s.setPc (addrOf nnn))

/-- `BNNN` (R176) -/
def execJpV0Nnn (nnn : Addr12) (s : State) : Host.Outcome State Fault Refusal :=
  .next (s.setPc (s.jumpTarget nnn))

/-- The bound of a push: `SP = STACK_DEPTH` raises `StackOverflow` (R177, R302). -/
def State.overflowFault (s : State) : Option Fault :=
  if s.sp = s.cfg.stackDepth then some .stackOverflow else none

/-- The bound of a pop: `SP = 0` raises `StackUnderflow` (R178, R303). -/
def State.underflowFault (s : State) : Option Fault :=
  if s.sp = 0 then some .stackUnderflow else none

/-- `2NNN`: pushes the address of the instruction after it (R177) -/
def execCallNnn (nnn : Addr12) (s : State) : Host.Outcome State Fault Refusal :=
  orRaise s.overflowFault s ((s.push s.nextPc).setPc (addrOf nnn))

/-- `00EE` (R178) -/
def execRet (s : State) : Host.Outcome State Fault Refusal :=
  orRaise s.underflowFault s (s.pop.setPc (s.stackAt (s.sp - 1)))

end Sys2Proof.Machine
end

