-- ==== Sys2Proof/Machine/Flags.lean ====
section
/-! DEFINITION. Every flag computation, each an exact comparison or bit, and the one rule of writing a result and its
flag (spec/40_load_arith.md R141, spec/10_state.md R32). -/

namespace Sys2Proof.Machine

/-- Carry of an addition: the true sum exceeds 255 (R141 d, R147). -/
def carryFlag (a b : Byte) : Bool := 255 < a.toNat + b.toNat

/-- NOT borrow of `a - b`: the minuend is at least the subtrahend (R141 d, R148, R150). -/
def notBorrowFlag (a b : Byte) : Bool := b.toNat ≤ a.toNat

/-- The bit a right shift moves out: bit 0 (R149). -/
def shiftedOutRight (b : Byte) : Bool := b.getLsbD 0

/-- The bit a left shift moves out: bit 7 (R151). -/
def shiftedOutLeft (b : Byte) : Bool := b.getLsbD 7

/-- The overflow of `FX1E` under OVERFLOW_FFF: the sum exceeds 0xFFF (R255). -/
def indexOverflow (sum : Nat) : Bool := 0xFFF < sum

/-- A result to `V[X]` first and its flag to `VF` second, so that with X = F the flag stays (R141 c). -/
def State.setVFlag (s : State) (x : Reg) (result : Byte) (flag : Bool) : State :=
  (s.setV x result).setV Reg.vf (flagByte flag)

/-- The result of a logic operation, then VF cleared under `LOGIC_VF_RESET` = ON (R144). -/
def State.setVLogic (s : State) (x : Reg) (result : Byte) : State :=
  match s.cfg.logicVfReset with
  | .on => (s.setV x result).setV Reg.vf 0#8
  | .off => s.setV x result

/-- The flag of `FX1E`, written only under OVERFLOW_FFF (R255). -/
def State.setIndexFlag (s : State) (sum : Nat) : State :=
  match s.cfg.fx1eVf with
  | .unchanged => s
  | .overflowFff => s.setV Reg.vf (flagByte (indexOverflow sum))

end Sys2Proof.Machine
end

