-- ==== Sys2Proof/Machine/Display.lean ====
section
/-! DEFINITION. The framebuffer and its two instructions (spec/42_display.md). Bit x of row y of a frame is pixel
(x, y) (R42; log 16). -/

namespace Sys2Proof.Machine

/-- Pixel (x, y): `FB[y][x]`. -/
def Frame.pixel (f : Frame) (x y : Nat) : Bool := if h : y < 32 then f[y].getLsbD x else false

/-- `FB[y][x] <- FB[y][x] ^ 1`. -/
def Frame.toggle (f : Frame) (x y : Nat) : Frame :=
  if h : y < 32 then f.set y (f[y] ^^^ BitVec.twoPow 64 x) else f

/-- The first `n` pixels of `Blit(b, x0, yr)` (R206), with the collision so far: bit 7 - k of the row byte controls
column (x0 + k) mod 64 (R203, R204). -/
def blitPixels (b : Byte) (x0 yr : Nat) (f : Frame) : Nat → Frame × Bool
  | 0 => (f, false)
  | k + 1 =>
    let before := blitPixels b x0 yr f k
    let px := (x0 + k) % 64
    if b.getLsbD (7 - k) then (Frame.toggle before.1 px yr, before.2 || Frame.pixel before.1 px yr)
    else before

/-- `Blit(b, x0, yr)` (R206): the frame after one sprite row and whether a set pixel was cleared. -/
def blit (b : Byte) (x0 yr : Nat) (f : Frame) : Frame × Bool := blitPixels b x0 yr f 8

/-- The first `n` rows of a sprite in memory at `base` (R202): row r goes to row (y0 + r) mod 32 (R204). -/
def drawRows (m : Memory) (base x0 y0 : Nat) (f : Frame) : Nat → Frame × Bool
  | 0 => (f, false)
  | r + 1 =>
    let before := drawRows m base x0 y0 f r
    let row := blit (Memory.get m (base + r)) x0 ((y0 + r) % 32) before.1
    (row.1, before.2 || row.2)

/-- The whole of a `DXYN`'s drawing: the frame and the collision (R202, R205). -/
def State.drawn (s : State) (x y : Reg) (n : BitVec 4) : Frame × Bool :=
  drawRows s.mem s.i.toNat (s.startColumn x) (s.startRow y) s.fb n.toNat

/-- `FB <- f`. -/
def State.setFb (s : State) (f : Frame) : State := { s with fb := f }

/-- `00E0`: all pixels 0, VF unchanged (R201) -/
def execCls (s : State) : Host.Outcome State Fault Refusal :=
  .next (s.advance.setFb Frame.blank)

/-- `DXYN`: XOR-blit of N rows at `I`, the collision in VF (R202) -/
def execDrwVxVyN (x y : Reg) (n : BitVec 4) (s : State) : Host.Outcome State Fault Refusal :=
  orRaise (rangeFault s.i.toNat n.toNat) s
    ((s.advance.setFb (s.drawn x y n).1).setV Reg.vf (flagByte (s.drawn x y n).2))

/-- Bit `n` of the snapshot format: bit 64 * y + x is pixel (x, y) (R213). -/
def Frame.snapshotBit (f : Frame) (n : Nat) : Bool := Frame.pixel f (n % 64) (n / 64)

/-- Byte `k` of the snapshot format: pixels 8 * (k mod 8) .. +7 of row k / 8, the leftmost in bit 7 (R213). -/
def Frame.snapshotByte (f : Frame) (k : Nat) : Byte :=
  (List.range 8).foldl (fun acc j => acc <<< 1 ||| flagByte (Frame.pixel f (8 * (k % 8) + j) (k / 8))) 0#8

/-- The 256 bytes of the snapshot format (R213). -/
def Frame.snapshotBytes (f : Frame) : List Byte := (List.range 256).map (Frame.snapshotByte f)

end Sys2Proof.Machine
end

