-- ==== Sys2Proof/Machine/IndexMemory.lean ====
section
/-! DEFINITION. BCD, random, index, font and block transfers (spec/44_index_memory.md). Each access is checked whole
before anything is written (R81). -/

namespace Sys2Proof.Machine

/-- `FX33`: three decimal digits at I, I+1, I+2 (R250) -/
def execLdBVx (x : Reg) (s : State) : Host.Outcome State Fault Refusal :=
  orRaise (rangeFault s.i.toNat 3) s
    { s.advance with mem := s.mem.writeBytes s.i.toNat (bcdDigits (s.getV x)) }

/-- `CXNN`: one fresh draw, masked (R252, R253) -/
def execRndVxNn (x : Reg) (nn : Byte) (s : State) : Host.Outcome State Fault Refusal :=
  .next (s.afterDraw.advance.setV x (s.drawnByte &&& nn))

/-- `ANNN` (R254) -/
def execLdINnn (nnn : Addr12) (s : State) : Host.Outcome State Fault Refusal :=
  .next (s.advance.setI (addrOf nnn))

/-- `FX1E`: I wraps modulo 2^16; the flag, if any, is written after I (R255) -/
def execAddIVx (x : Reg) (s : State) : Host.Outcome State Fault Refusal :=
  .next ((s.advance.setI (BitVec.ofNat 16 (s.indexSum x))).setIndexFlag (s.indexSum x))

/-- `FX29` (R256) -/
def execLdFVx (x : Reg) (s : State) : Host.Outcome State Fault Refusal :=
  .next (s.advance.setI (s.fontAddress x))

/-- `FX55`: V0..VX to memory at I, then I as `LDST_I_MODE` says (R260) -/
def execLdMemVx (x : Reg) (s : State) : Host.Outcome State Fault Refusal :=
  orRaise (rangeFault s.i.toNat (blockCount x)) s
    { s.advance with mem := s.storedBlock s.i.toNat (blockCount x), i := s.indexAfterBlock x }

/-- `FX65`: V0..VX from memory at I, then I as `LDST_I_MODE` says (R261) -/
def execLdVxMem (x : Reg) (s : State) : Host.Outcome State Fault Refusal :=
  orRaise (rangeFault s.i.toNat (blockCount x)) s
    ((s.advance.loadedBlock s.i.toNat (blockCount x)).setI (s.indexAfterBlock x))

end Sys2Proof.Machine
end

