-- ==== Sys2Proof/Machine/KeysTimers.lean ====
section
/-! DEFINITION. The key-test, key-wait and timer instructions and the key-wait poll (spec/43_keys_timers.md). `KP`
changes only between steps, so reading it anywhere in a step is the step's one sample (R220). -/

namespace Sys2Proof.Machine

/-- Whether the key numbered by the low nibble of V[X] is pressed in the sample (R221, R223). -/
def State.keyPressed (s : State) (x : Reg) : Bool := keyBit s.kp (s.lowNibble x)

/-- `EX9E` (R221) -/
def execSkpVx (x : Reg) (s : State) : Host.Outcome State Fault Refusal :=
  .next (s.skipIf (s.keyPressed x))

/-- `EXA1` (R222) -/
def execSknpVx (x : Reg) (s : State) : Host.Outcome State Fault Refusal :=
  .next (s.skipIf (!s.keyPressed x))

/-- Enters the key-wait sub-state for register X (R225). -/
def State.enterWait (s : State) (x : Reg) : State := { s with wait := ⟨true, x, s.kp⟩ }

/-- `FX0A`: the dispatch step does not look for a key (R225) -/
def execLdVxK (x : Reg) (s : State) : Host.Outcome State Fault Refusal :=
  .next (s.advance.enterWait x)

/-- The keys that can complete a wait (R226). -/
def State.candidateKeys (s : State) : Word :=
  match s.cfg.keywaitMode with
  | .level => s.kp
  | .pressEdge => s.kp &&& ~~~s.wait.prev

/-- The lowest set bit among bits `k`, `k + 1`, …, for `fuel` bits (R227 d). -/
def lowestKeyFrom (w : Word) : Nat → Nat → Option Nat
  | _, 0 => none
  | k, fuel + 1 => if w.getLsbD k then some k else lowestKeyFrom w (k + 1) fuel

/-- The lowest-numbered key of a set of keys (R226, R227 d). -/
def lowestKey (w : Word) : Option Nat := lowestKeyFrom w 0 16

/-- A poll that finds no candidate: under PRESS_EDGE the sample is kept, nothing else changes (R226). -/
def State.keepWaiting (s : State) : State :=
  match s.cfg.keywaitMode with
  | .level => s
  | .pressEdge => { s with wait := { s.wait with prev := s.kp } }

/-- A poll that completes with key `k` (R226). -/
def State.completeWait (s : State) (k : Nat) : State :=
  { s.setV s.wait.x (BitVec.ofNat 8 k) with wait := { s.wait with active := false } }

/-- `KeyWaitPoll` (R226): runs instead of a fetch while `WAIT` = 1. -/
def State.keyWaitPoll (s : State) : State :=
  match lowestKey s.candidateKeys with
  | none => s.keepWaiting
  | some k => s.completeWait k

/-- `FX07` (R228) -/
def execLdVxDt (x : Reg) (s : State) : Host.Outcome State Fault Refusal :=
  .next (s.advance.setV x s.dt)

/-- `DT <- b`. -/
def State.setDt (s : State) (b : Byte) : State := { s with dt := b }

/-- `ST <- b`. -/
def State.setSt (s : State) (b : Byte) : State := { s with st := b }

/-- `FX15` (R229) -/
def execLdDtVx (x : Reg) (s : State) : Host.Outcome State Fault Refusal :=
  .next (s.advance.setDt (s.getV x))

/-- `FX18` (R230) -/
def execLdStVx (x : Reg) (s : State) : Host.Outcome State Fault Refusal :=
  .next (s.advance.setSt (s.getV x))

end Sys2Proof.Machine
end

