-- ==== Sys2Proof/Machine/LoadArith.lean ====
section
/-! DEFINITION. The load, arithmetic, bitwise and shift instructions (spec/40_load_arith.md). None can fault. In every
meaning `s` is the state before the step: operands are read from it (R141 b), and `s.advance` is the state with `PC`
already advanced (R113). -/

namespace Sys2Proof.Machine

/-- `6XNN` (R140) -/
def execLdVxNn (x : Reg) (nn : Byte) (s : State) : Host.Outcome State Fault Refusal :=
  .next (s.advance.setV x nn)

/-- `7XNN`: no flag (R142) -/
def execAddVxNn (x : Reg) (nn : Byte) (s : State) : Host.Outcome State Fault Refusal :=
  .next (s.advance.setV x (s.getV x + nn))

/-- `8XY0` (R143) -/
def execLdVxVy (x y : Reg) (s : State) : Host.Outcome State Fault Refusal :=
  .next (s.advance.setV x (s.getV y))

/-- `8XY1` (R144) -/
def execOrVxVy (x y : Reg) (s : State) : Host.Outcome State Fault Refusal :=
  .next (s.advance.setVLogic x (s.getV x ||| s.getV y))

/-- `8XY2` (R145) -/
def execAndVxVy (x y : Reg) (s : State) : Host.Outcome State Fault Refusal :=
  .next (s.advance.setVLogic x (s.getV x &&& s.getV y))

/-- `8XY3` (R146) -/
def execXorVxVy (x y : Reg) (s : State) : Host.Outcome State Fault Refusal :=
  .next (s.advance.setVLogic x (s.getV x ^^^ s.getV y))

/-- `8XY4`: VF is the carry (R147) -/
def execAddVxVy (x y : Reg) (s : State) : Host.Outcome State Fault Refusal :=
  .next (s.advance.setVFlag x (s.getV x + s.getV y) (carryFlag (s.getV x) (s.getV y)))

/-- `8XY5`: VF is NOT borrow of VX - VY (R148) -/
def execSubVxVy (x y : Reg) (s : State) : Host.Outcome State Fault Refusal :=
  .next (s.advance.setVFlag x (s.getV x - s.getV y) (notBorrowFlag (s.getV x) (s.getV y)))

/-- `8XY6`: VF is bit 0 of the source (R149) -/
def execShrVxVy (x y : Reg) (s : State) : Host.Outcome State Fault Refusal :=
  .next (s.advance.setVFlag x (s.shiftSource x y >>> 1) (shiftedOutRight (s.shiftSource x y)))

/-- `8XY7`: VF is NOT borrow of VY - VX (R150) -/
def execSubnVxVy (x y : Reg) (s : State) : Host.Outcome State Fault Refusal :=
  .next (s.advance.setVFlag x (s.getV y - s.getV x) (notBorrowFlag (s.getV y) (s.getV x)))

/-- `8XYE`: VF is bit 7 of the source (R151) -/
def execShlVxVy (x y : Reg) (s : State) : Host.Outcome State Fault Refusal :=
  .next (s.advance.setVFlag x (s.shiftSource x y <<< 1) (shiftedOutLeft (s.shiftSource x y)))

end Sys2Proof.Machine
end

