-- ==== Sys2Proof/Machine/Interp.lean ====
section
/-! DEFINITION. One Interpreter step (spec/30_encoding.md R113) and its outcome (spec/00_scope.md R13). -/

namespace Sys2Proof.Machine

/-- An invalid word: a fault under FATAL; under SKIP a no-op that sets `INVALID_SEEN` (R113, R115). -/
def invalidWord (s : State) : Host.Outcome State Fault Refusal :=
  match s.cfg.invalidOpcode with
  | .fatal => raise .invalidOpcode s
  | .skip => .next { s.advance with invalidSeen := true }

/-- Decode and execute the word at `PC`, once the fetch checks have passed (R113, parts 2 to 4). -/
def runFetched (s : State) : Host.Outcome State Fault Refusal :=
  match decode s.fetchBytes with
  | .ok (i, _) => exec i s
  | .reject _ => invalidWord s

/-- Fetch, then the rest; a fetch fault records `FAULT_OP` = 0 (R113 part 1, R305). -/
def fetchAndRun (s : State) : Host.Outcome State Fault Refusal :=
  match s.fetchFault with
  | some f => .next (s.takeFault f 0#16)
  | none => runFetched s

/-- `Step()` (R113): nothing unless RUNNING; a poll while `WAIT` = 1; else one instruction. -/
def interpStep (s : State) : Host.Outcome State Fault Refusal :=
  match s.run with
  | .running => if s.wait.active then .next s.keyWaitPoll else fetchAndRun s
  | .unloaded => .next s
  | .halted => .next s

/-- The outcome of an Interpreter step (R13). -/
inductive StepReport where
  | ok
  | waiting
  | faulted (c : FaultCode)
  | noStep
  deriving DecidableEq, Repr

/-- The report of a step that took `before` to `after`: a step that was RUNNING and leaves the core not RUNNING is
one that took a fault, since nothing else in a step writes `RUNSTATE` (R38, R305). -/
def stepReport (before after : State) : StepReport :=
  if before.run ≠ .running then .noStep
  else if after.run ≠ .running then .faulted after.fault.code
  else if after.wait.active then .waiting
  else .ok

end Sys2Proof.Machine
end

