-- ==== Sys2Proof/Machine/Scheduler.lean ====
section
/-! DEFINITION. The Scheduler FSM, the timer phase and the Fuse (spec/60_exceptions.md R320 to R343). -/

namespace Sys2Proof.Machine

/-- `Trip()` (R340). -/
def State.trip (s : State) : State := { s with fuse := true }

/-- The end of the run seen at a Fuse check: `RUNSTATE <- HALTED`, to EXIT (R320). -/
def State.exitRun (s : State) : State := { s with run := .halted, sched := .exit }

/-- The SLEEP transition on a `cpu_tick` (R320). -/
def sleepTransition (s : State) : State :=
  if s.fuse then s.exitRun else { s with batchLeft := s.cfg.cyclesPerTick, sched := .batch }

/-- What the Scheduler does with the step it invoked in BATCH: after a fault it trips the Fuse and exits (R323); else
one step less is left, and the batch goes on or the timer phase follows (R320, R322). -/
def afterBatchStep (before after : State) : State :=
  match stepReport before after with
  | .faulted _ => { after.trip with sched := .exit }
  | .ok | .waiting | .noStep =>
    { after with batchLeft := after.batchLeft - 1,
                 sched := if after.batchLeft - 1 = 0 then .timer else .batch }

/-- The BATCH transition: one `Step()` (R320, R322). -/
def batchTransition (s : State) : Host.Outcome State Fault Refusal := onNext (interpStep s) (afterBatchStep s)

/-- `sat_sub(a, b)` (R10). -/
def satSub (a b : Byte) : Byte := BitVec.ofNat 8 (a.toNat - b.toNat)

/-- The timer phase (R331). -/
def State.timerPhase (s : State) : State :=
  { s with dt := satSub s.dt s.timerPending, st := satSub s.st s.timerPending, timerPending := 0#8 }

/-- The TIMER transition: the timer phase, then the Fuse check (R320, R324). -/
def timerTransition (s : State) : State :=
  if s.fuse then s.timerPhase.exitRun else { s.timerPhase with sched := .sleep }

/-- One Core step out of BATCH or TIMER. In SLEEP the Core waits for a tick and in EXIT it has no step (R320, R325). -/
def coreMove (s : State) : Host.Outcome State Fault Refusal :=
  match s.sched with
  | .batch => batchTransition s
  | .timer => .next (timerTransition s)
  | .sleep => .next s
  | .exit => .next s

/-- Whether `cpu_tick` is enabled: only in SLEEP (R321), and not before `Load` has started a run (R370). -/
def tickEnabled (s : State) : Bool := s.sched == .sleep && s.run != .unloaded

/-- One `cpu_tick` (R321): consumed by the SLEEP transition, never queued. -/
def tickMove (s : State) : State := if tickEnabled s then sleepTransition s else s

/-- Whether a timer strobe counts: RUNNING and not EXIT (R330). -/
def strobeEnabled (s : State) : Bool := s.run == .running && s.sched != .exit

/-- `TIMER_PENDING <- min(TIMER_PENDING + 1, 255)` (R330). -/
def strobeMove (s : State) : State :=
  if strobeEnabled s then { s with timerPending := BitVec.ofNat 8 (min (s.timerPending.toNat + 1) 255) } else s

end Sys2Proof.Machine
end

