-- ==== Sys2Proof/Machine/Agents.lean ====
section
/-! DEFINITION. The other agents' steps and the host's transactions (spec/00_scope.md R7, spec/10_state.md R48,
spec/42_display.md R211, spec/43_keys_timers.md R240, R241, spec/70_reset_and_hazards.md R370 to R373). A move its rule
does not enable changes nothing (log 3). -/

namespace Sys2Proof.Machine

/-! ### Input and display crossings -/

/-- InputSync for one key (R241): `KP[k] <- KU[k]`. -/
def inputSyncMove (k : BitVec 4) (s : State) : State := { s with kp := withKeyBit s.kp k (keyBit s.ku k) }

/-- `Set(key, pressed)` (R240). -/
def setKeyMove (k : BitVec 4) (pressed : Bool) (s : State) : State := { s with ku := withKeyBit s.ku k pressed }

/-- `SnapshotRequest()` (R211). -/
def snapshotRequestMove (s : State) : State := { s with snapReq := true }

/-- SnapCapture (R211): enabled while a request is pending; all 2048 pixels at once. -/
def snapCaptureMove (s : State) : State := if s.snapReq then { s with snap := s.fb, snapReq := false } else s

/-! ### Configuration and load -/

/-- `ConfigValid()` (R373). The option parameters have only their listed values by their types. -/
def configValid (c : Config) : Bool :=
  1 ≤ c.cyclesPerTick && 1 ≤ c.stackDepth && decide (0 < c.cpuFreqHz) && decide (0 < c.timerHz) && c.fontBase + 79 ≤ 0x1FF

/-- The host fixes the parameters, before `Load` (R48 IF_CFG, R350). The return stack has `STACK_DEPTH` entries, all 0
before `Load` (R35, R54; log 8). -/
def configureMove (c : Config) (s : State) : State :=
  match s.run with
  | .unloaded => { s with cfg := c, stack := List.replicate c.stackDepth 0#16 }
  | .running => s
  | .halted => s

/-- The built-in font, digits 0 to 7 (R257). -/
def fontLow : List Byte :=
  [0xF0#8, 0x90#8, 0x90#8, 0x90#8, 0xF0#8,  0x20#8, 0x60#8, 0x20#8, 0x20#8, 0x70#8,
   0xF0#8, 0x10#8, 0xF0#8, 0x80#8, 0xF0#8,  0xF0#8, 0x10#8, 0xF0#8, 0x10#8, 0xF0#8,
   0x90#8, 0x90#8, 0xF0#8, 0x10#8, 0x10#8,  0xF0#8, 0x80#8, 0xF0#8, 0x10#8, 0xF0#8,
   0xF0#8, 0x80#8, 0xF0#8, 0x90#8, 0xF0#8,  0xF0#8, 0x10#8, 0x20#8, 0x40#8, 0x40#8]

/-- The built-in font, digits 8 to F (R257). -/
def fontHigh : List Byte :=
  [0xF0#8, 0x90#8, 0xF0#8, 0x90#8, 0xF0#8,  0xF0#8, 0x90#8, 0xF0#8, 0x10#8, 0xF0#8,
   0xF0#8, 0x90#8, 0xF0#8, 0x90#8, 0x90#8,  0xE0#8, 0x90#8, 0xE0#8, 0x90#8, 0xE0#8,
   0xF0#8, 0x80#8, 0x80#8, 0x80#8, 0xF0#8,  0xE0#8, 0x90#8, 0x90#8, 0x90#8, 0xE0#8,
   0xF0#8, 0x80#8, 0xF0#8, 0x80#8, 0xF0#8,  0xF0#8, 0x80#8, 0xF0#8, 0x80#8, 0x80#8]

/-- The 80 bytes of the built-in font (R257). -/
def font : List Byte := fontLow ++ fontHigh

/-- Memory after a load: the font at `FONT_BASE`, the image at 0x200, 0 elsewhere (R372). -/
def loadedMemory (c : Config) (image : List Byte) : Memory :=
  Memory.writeBytes (Memory.writeBytes [] c.fontBase font) 0x200 image

/-- `LoadImage` (R372). `KU`, `KP`, `SNAP`, `SNAP_REQ` and `FUSE` are not changed. -/
def loadImage (image : List Byte) (s : State) : State :=
  { s with
    mem := loadedMemory s.cfg image
    v := Vector.replicate 16 0#8
    i := 0#16
    sp := 0
    stack := List.replicate s.cfg.stackDepth 0#16
    dt := 0#8
    st := 0#8
    wait := KeyWait.clear
    fault := FaultRecord.clear
    invalidSeen := false
    fb := Frame.blank
    timerPending := 0#8
    sched := .sleep
    batchLeft := 0
    pc := 0x200#16
    run := .running }

/-- What `Load` answers (R371). -/
inductive LoadReply where
  | ok
  | badConfig
  | empty
  | oversized
  deriving DecidableEq, Repr

/-- The answer of `Load(image)` under a configuration, for a load that is accepted for consideration (R371). -/
def loadReply (c : Config) (image : List Byte) : LoadReply :=
  if configValid c = false then .badConfig
  else if image.length = 0 then .empty
  else if 0xE00 < image.length then .oversized
  else .ok

/-- `Load(image)` (R371): accepted only while UNLOADED; a rejected load changes nothing. -/
def loadMove (image : List Byte) (s : State) : State :=
  match s.run with
  | .unloaded =>
    match loadReply s.cfg image with
    | .ok => loadImage image s
    | .badConfig | .empty | .oversized => s
  | .running => s
  | .halted => s

/-- The start of a new run (R370): every element at its reset value. There is no warm reset during a run, so it
happens only before `Load` or after EXIT (log 7). The configuration and the outside world are not state (R30). -/
def resetMove (s : State) : State :=
  if s.run = .unloaded ∨ s.sched = .exit then State.resetUnder s.cfg s.env else s

/-! ### What the host reads (R48): functions of the state, so that reading changes nothing (log 13) -/

/-- `sound_active` (R53). -/
def State.soundActive (s : State) : Bool := s.st != 0#8

/-- `IsTripped()` (R341). -/
def State.isTripped (s : State) : Bool := s.fuse

/-- `Snapshot()` (R211): enabled while no request is pending. -/
def State.snapshotRead (s : State) : Option Frame := if s.snapReq then none else some s.snap

/-- The UI host's read of all 16 key states (R240). -/
def State.keySnapshot (s : State) : Word := s.ku

/-- `RUNSTATE` as `STATUS` shows it (R50). -/
def RunState.bits : RunState → BitVec 2
  | .unloaded => 0#2
  | .running => 1#2
  | .halted => 2#2

/-- `FAULT_CODE` as a number (R39). -/
def FaultCode.bits : FaultCode → BitVec 3
  | .none => 0#3
  | .memoryOutOfBounds => 1#3
  | .stackOverflow => 2#3
  | .stackUnderflow => 3#3
  | .invalidOpcode => 4#3

/-- `STATUS` (R50), bit 15 first: reserved zeros, SOUND, INVALID_SEEN, FAULT_CODE, FUSE, WAIT, RUNSTATE. -/
def State.statusWord (s : State) : Word :=
  0#7 ++ BitVec.ofBool s.soundActive ++ BitVec.ofBool s.invalidSeen ++ s.fault.code.bits ++ BitVec.ofBool s.fuse ++
    BitVec.ofBool s.wait.active ++ s.run.bits

/-- What `ReadStatus()` gives back (R48, R50). -/
structure StatusReply where
  status    : Word
  faultPc   : Word
  faultOp   : Word
  faultAddr : BitVec 17
  deriving DecidableEq, Repr

/-- `ReadStatus()` (R50). -/
def State.readStatus (s : State) : StatusReply := ⟨s.statusWord, s.fault.pc, s.fault.op, s.fault.addr⟩

/-! ### One move of one agent (R7) -/

/-- What a move does to the state. -/
def agentMove (m : Move) (s : State) : Host.Outcome State Fault Refusal :=
  match m with
  | .core => coreMove s
  | .tick => .next (tickMove s)
  | .timerTick => .next (strobeMove s)
  | .inputSync k => .next (inputSyncMove k s)
  | .snapCapture => .next (snapCaptureMove s)
  | .setKey k p => .next (setKeyMove k p s)
  | .snapshotRequest => .next (snapshotRequestMove s)
  | .trip => .next s.trip
  | .configure c => .next (configureMove c s)
  | .load image => .next (loadMove image s)
  | .reset => .next (resetMove s)

/-! ### Which moves are enabled, and which must come (R7, R8) -/

/-- Whether the rule of a move enables it. The UI host may act at any time (R350). -/
def Move.enabled (m : Move) (s : State) : Bool :=
  match m with
  | .core => s.sched == .batch || s.sched == .timer
  | .tick => tickEnabled s
  | .timerTick => strobeEnabled s
  | .inputSync k => keyBit s.kp k != keyBit s.ku k
  | .snapCapture => s.snapReq
  | .setKey _ _ => true
  | .snapshotRequest => true
  | .trip => true
  | .configure _ => s.run == .unloaded
  | .load _ => s.run == .unloaded
  | .reset => s.run == .unloaded || s.sched == .exit

/-- Whether fairness obliges a move to come: the Core's and the four agents' of R8, R211, R241, R321, R330. What the UI
host and the Loader host do is theirs to choose (R350). -/
def Move.obliged : Move → Bool
  | .core => true
  | .tick => true
  | .timerTick => true
  | .inputSync _ => true
  | .snapCapture => true
  | .setKey _ _ => false
  | .snapshotRequest => false
  | .trip => false
  | .configure _ => false
  | .load _ => false
  | .reset => false

/-! ### The agent that moves next -/

/-- The clock-domain crossing that waits to happen, if any: a pending capture, then the lowest-numbered key that has not
reached `KP` (R211, R241; the order is log 2's). -/
def State.waitingCrossing (s : State) : Option Move :=
  if s.snapReq then some .snapCapture
  else (lowestKey (s.ku ^^^ s.kp)).map (fun k => .inputSync (BitVec.ofNat 4 k))

/-- What the timer and tick sources do in SLEEP: one strobe for each tick, the strobe first (R332; log 2). -/
def State.sleepMove (s : State) : Move := if strobeEnabled s && s.timerPending == 0#8 then .timerTick else .tick

/-- The move that comes when none is listed. A batch and its timer phase go on; in SLEEP and EXIT every crossing that
waits happens, and in SLEEP then a strobe and a tick, so that an unending run is fair (R8). DESIGN CHOICE, log 2. -/
def State.defaultMove (s : State) : Move :=
  match s.sched with
  | .batch => .core
  | .timer => .core
  | .sleep => s.waitingCrossing.getD s.sleepMove
  | .exit => s.waitingCrossing.getD .core

/-- The agent that moves next. -/
def State.nextMove (s : State) : Move :=
  match s.env.agenda with
  | m :: _ => m
  | [] => s.defaultMove

/-- The state with that move taken off the list. -/
def State.dropMove (s : State) : State := { s with env := { s.env with agenda := s.env.agenda.tail } }

/-- The state with one move put before the others. -/
def State.scheduleFirst (m : Move) (s : State) : State :=
  { s with env := { s.env with agenda := m :: s.env.agenda } }

/-- A state made ready for the Core to run the word `w` next: a run in its batch, nothing waited for, and the bytes of
`w` at `PC` (at 0x200 where `PC` could not be fetched from). -/
def State.readyToRun (s : State) (w : Word) : State :=
  let pc := if s.fetchFault = none then s.pc else 0x200#16
  { s with
    mem := Memory.writeBytes s.mem pc.toNat (bytesOfWord w)
    pc := pc
    run := .running
    wait := { s.wait with active := false }
    sched := .batch
    batchLeft := if s.batchLeft = 0 then s.cfg.cyclesPerTick else s.batchLeft }

end Sys2Proof.Machine
end

