-- ==== Sys2Proof/Machine/Step.lean ====
section
/-! DEFINITION. One step of the block: one move of one agent (spec/00_scope.md R7; log 2). -/

namespace Sys2Proof.Machine

/-- One step: the agent whose move is next makes it. -/
def step (s : State) : Host.Outcome State Fault Refusal := agentMove s.nextMove s.dropMove

/-- `s` with the instruction word `w`, numbered as spec/opcode_table.json numbers its bits, where the Core fetches
next, and the Core's move first, so that the very next step runs it (log 6). -/
def State.withFetchWord (s : State) (nbits w : Nat) : State :=
  (s.readyToRun (BitVec.ofNat 16 (w % 2 ^ nbits))).scheduleFirst .core

end Sys2Proof.Machine
end

