-- ==== Sys2Proof/Machine/Runs.lean ====
section
/-! DEFINITION. Unending runs of the block and their fairness (spec/00_scope.md R7, R8). A schedule is any unending
sequence of the agents' moves, so the runs under all schedules are all the interleavings of R7; `step` itself follows the
moves its state lists and then its own fair order (log 2, log 14). -/

namespace Sys2Proof.Machine

/-- Which agent moves at each step. -/
abbrev Schedule := Nat → Move

/-- The states of an unending run in which the agents move as a schedule says. -/
def runsUnder (moves : Schedule) (r : Nat → State) : Prop := ∀ n, step ((r n).scheduleFirst (moves n)) = .next (r (n + 1))

/-- The states of an unending run in which the agents move as the state itself says. -/
def runsByItself (r : Nat → State) : Prop := ∀ n, step (r n) = .next (r (n + 1))

/-- The schedule a run by itself follows. -/
def ownSchedule (r : Nat → State) : Schedule := fun n => (r n).nextMove

/-- Fairness (R8): a move that fairness obliges, once enabled, comes or stops being enabled. So a tick comes in SLEEP
(R321), strobes come during a run (R330), a pending request is captured (R211), and a key whose `KU` bit stays different
from its `KP` bit is copied (R241). -/
def fair (moves : Schedule) (r : Nat → State) : Prop :=
  ∀ (m : Move) (n : Nat), m.obliged = true → m.enabled (r n) = true →
    ∃ k, n ≤ k ∧ (moves k = m ∨ m.enabled (r k) = false)

end Sys2Proof.Machine
end

