-- ==== Sys2Proof/Safety.lean ====
section
/-! DEFINITION. What a legal state and a safe run are, and the terms claims use: which parts of the state two states
agree on, and what a program can see of a state. -/

namespace Sys2Proof.Machine

/-! ### Parts of the state and frames -/

/-- A part of the state, for saying what is unchanged. -/
inductive Part where
  | mem | v | i | pc | stack | dt | st | wait | run | fault | invalidSeen | fb | snap | ku | kp | fuse | sched
  | timerPending | cfg | agenda | entropy
  deriving DecidableEq, Repr

/-- Two states agree on a part. Memory is compared through the read of one byte, registers one by one. -/
def State.agreesOn (p : Part) (s t : State) : Prop :=
  match p with
  | .mem => ∀ a : Nat, t.readByte a = s.readByte a
  | .v => ∀ r : Reg, t.getV r = s.getV r
  | .i => t.i = s.i
  | .pc => t.pc = s.pc
  | .stack => t.sp = s.sp ∧ t.stack = s.stack
  | .dt => t.dt = s.dt
  | .st => t.st = s.st
  | .wait => t.wait = s.wait
  | .run => t.run = s.run
  | .fault => t.fault = s.fault
  | .invalidSeen => t.invalidSeen = s.invalidSeen
  | .fb => t.fb = s.fb
  | .snap => t.snap = s.snap ∧ t.snapReq = s.snapReq
  | .ku => t.ku = s.ku
  | .kp => t.kp = s.kp
  | .fuse => t.fuse = s.fuse
  | .sched => t.sched = s.sched ∧ t.batchLeft = s.batchLeft
  | .timerPending => t.timerPending = s.timerPending
  | .cfg => t.cfg = s.cfg
  | .agenda => t.env.agenda = s.env.agenda
  | .entropy => t.env.answers = s.env.answers ∧ t.env.draws = s.env.draws

/-- Nothing changes from `s` to `t` but the parts listed. -/
def onlyChanges (ps : List Part) (s t : State) : Prop := ∀ p : Part, p ∉ ps → State.agreesOn p s t

/-- Every general register but those listed is unchanged. -/
def onlyRegisters (rs : List Reg) (s t : State) : Prop := ∀ r : Reg, r ∉ rs → t.getV r = s.getV r

/-- Every byte of memory outside `base .. base + n - 1` is unchanged. -/
def onlyBytes (base n : Nat) (s t : State) : Prop :=
  ∀ a : Nat, ¬(base ≤ a ∧ a < base + n) → t.readByte a = s.readByte a

/-- The frame of an instruction that writes registers and does nothing else: `PC` goes to the next instruction, and no
part but the registers and `PC` changes. -/
def changesRegistersOnly (s t : State) : Prop := t.pc = s.pc + 2#16 ∧ onlyChanges [.v, .pc] s t

/-- A fault has been taken as R305 and R306 say: the record is written, the core is HALTED, nothing else changes. -/
def recordsFault (code : FaultCode) (op : Word) (addr : BitVec 17) (s t : State) : Prop :=
  t.fault = ⟨code, s.pc, op, addr⟩ ∧ t.run = .halted ∧ onlyChanges [.fault, .run] s t

/-! ### Legal states -/

/-- A legal state of the block: what the spec's whole-machine sentences promise of every state a run reaches. -/
structure State.Inv (s : State) : Prop where
  /-- memory is in its canonical form -/
  memory : Memory.wf s.mem = true
  /-- the return stack has `STACK_DEPTH` entries (R35) -/
  stackLength : s.stack.length = s.cfg.stackDepth
  /-- `SP` is 0..`STACK_DEPTH` (R35) -/
  stackBound : s.sp ≤ s.cfg.stackDepth
  /-- an entry of the return stack is at most 0x1000 (R177) -/
  returnAddresses : ∀ w ∈ s.stack, w.toNat ≤ 0x1000
  /-- `PC` is at most 0x10FE, so it never wraps (R34) -/
  pcBound : s.pc.toNat ≤ 0x10FE
  /-- before `Load` no run is under way (R370) -/
  unloaded : s.run = .unloaded → s.sched = .sleep ∧ s.sp = 0 ∧ s.invalidSeen = false
  /-- a run has a valid configuration (R371, R373) -/
  configured : s.run ≠ .unloaded → configValid s.cfg = true
  /-- HALTED and EXIT come together (R325, R351) -/
  halted : s.run = .halted ↔ s.sched = .exit
  /-- in EXIT the Fuse is tripped (R325) -/
  exitFuse : s.sched = .exit → s.fuse = true
  /-- `BATCH_LEFT` is 0..`CYCLES_PER_TICK` (R46) -/
  batchBound : s.batchLeft ≤ s.cfg.cyclesPerTick
  /-- in BATCH a step is left (R46) -/
  batchOpen : s.sched = .batch → 0 < s.batchLeft
  /-- outside a batch none is (R320) -/
  batchClosed : s.sched = .sleep ∨ s.sched = .timer → s.batchLeft = 0
  /-- a recorded fault has halted the core (R305) -/
  faultHalts : s.fault.code ≠ .none → s.run = .halted
  /-- with no fault the record is 0 (R39) -/
  noFault : s.fault.code = .none → s.fault = FaultRecord.clear
  /-- `FAULT_ADDR` is 0 but for `MemoryOutOfBounds` (R39) -/
  faultAddr : s.fault.code ≠ .memoryOutOfBounds → s.fault.addr = 0#17
  /-- `INVALID_SEEN` is never set under FATAL (R40) -/
  invalidPolicy : s.invalidSeen = true → s.cfg.invalidOpcode = .skip

/-! ### Reset values (R54) -/

/-- Every element of R54's table has the value of its column 'after reset'; the return stack has `STACK_DEPTH` entries. -/
structure State.HoldsResetValues (s : State) : Prop where
  mem          : ∀ a, s.readByte a = 0#8
  v            : ∀ r, s.getV r = 0#8
  i            : s.i = 0#16
  pc           : s.pc = 0x200#16
  sp           : s.sp = 0
  stack        : s.stack = List.replicate s.cfg.stackDepth 0#16
  timers       : s.dt = 0#8 ∧ s.st = 0#8
  wait         : s.wait = ⟨false, 0#4, 0#16⟩
  run          : s.run = .unloaded
  fault        : s.fault = ⟨.none, 0#16, 0#16, 0#17⟩
  invalidSeen  : s.invalidSeen = false
  fb           : ∀ px py, Frame.pixel s.fb px py = false
  snap         : ∀ px py, Frame.pixel s.snap px py = false
  snapReq      : s.snapReq = false
  keys         : s.ku = 0#16 ∧ s.kp = 0#16
  fuse         : s.fuse = false
  sched        : s.sched = .sleep ∧ s.batchLeft = 0
  timerPending : s.timerPending = 0#8

/-! ### Safe runs -/

/-- A state in which no fault has been recorded: what a safe run keeps (R300, R351). -/
def State.faultFree (s : State) : Prop := s.fault.code = .none

/-- How many Core steps a tripped Fuse leaves at most (R343): the rest of the batch and its timer phase, or the one
transition out of TIMER or SLEEP. -/
def State.coreStepsToExit (s : State) : Nat :=
  match s.sched with
  | .sleep => 1
  | .batch => s.batchLeft + 1
  | .timer => 1
  | .exit => 0

/-- The next move is a Core step that its rule enables: out of BATCH or TIMER, or a tick in SLEEP (R320, R321). -/
def State.coreStepNext (s : State) : Prop :=
  (s.nextMove = .core ∧ (s.sched = .batch ∨ s.sched = .timer)) ∨ (s.nextMove = .tick ∧ s.sched = .sleep)

/-! ### What a program can see (R52) -/

/-- Two states a program cannot tell apart: they agree on `MEM`, `V`, `I`, `PC`, the return stack, `DT`, the key-wait
state, `KP`, `FB`, `RUNSTATE`, the configuration and the draws to come; `ST`, `FUSE`, the fault record, `INVALID_SEEN`,
`TIMER_PENDING`, `SNAP`, `KU` and the Scheduler's state may differ. -/
structure State.SameForProgram (s t : State) : Prop where
  mem     : t.mem = s.mem
  v       : t.v = s.v
  i       : t.i = s.i
  pc      : t.pc = s.pc
  sp      : t.sp = s.sp
  stack   : t.stack = s.stack
  dt      : t.dt = s.dt
  wait    : t.wait = s.wait
  kp      : t.kp = s.kp
  fb      : t.fb = s.fb
  run     : t.run = s.run
  cfg     : t.cfg = s.cfg
  answers : t.env.answers = s.env.answers
  draws   : t.env.draws = s.env.draws

/-! ### Encodings (R111, R114) -/

/-- The opcode word with number `w` is the instruction `i`. A pattern of R114 is the number of its class with the operand
fields in their nibbles: X in bits 11:8, Y in bits 7:4, N, NN and NNN from bit 0 (R111). -/
def wordDecodesTo (w : Nat) (i : Instr) : Prop := decodeWord (BitVec.ofNat 16 w) = .ok i

/-! ### Sprites (R203, R204) -/

/-- Pixel (px, py) is one the sprite of `DXYN` toggles: some row r below N and some column k below 8 fall on it, and bit
7 - k of the byte at I + r is 1. -/
def State.spriteToggles (s : State) (x y : Reg) (n : BitVec 4) (px py : Nat) : Prop :=
  ∃ r, r < n.toNat ∧ ∃ k, k < 8 ∧ px = ((s.getV x).toNat % 64 + k) % 64 ∧ py = ((s.getV y).toNat % 32 + r) % 32 ∧
    (s.readByte (s.i.toNat + r)).getLsbD (7 - k) = true

/-! ### Key-wait (R226) -/

/-- Key `k` can complete a key-wait: pressed in the sample, and under PRESS_EDGE not pressed in the sample before. -/
def State.canComplete (s : State) (k : Nat) : Prop :=
  s.kp.getLsbD k = true ∧ (s.cfg.keywaitMode = .pressEdge → s.wait.prev.getLsbD k = false)

/-! ### Fetch (R113) -/

/-- A state in which the Core's next move is an Interpreter step that fetches an instruction: RUNNING, no key-wait, in
its batch, the Core's move next, and the fetch checks passed. -/
structure State.FetchesNext (s : State) : Prop where
  running : s.run = .running
  notWaiting : s.wait.active = false
  inBatch : s.sched = .batch
  coreNext : s.nextMove = .core
  fetchable : s.fetchFault = none

end Sys2Proof.Machine
end

