-- ==== Sys2Proof/Certificates/Slice0/Obligations.lean ====
section
/-! DEFINITION. The statements for the provers, each from the numbered rules of spec/. In every statement about an
instruction `s` is the state before the step, `PC` at the instruction, and `t` the state after it. -/

open Sys2Proof Sys2Proof.Machine

/-! ### Load, arithmetic, bitwise and shift instructions -/

/-- R140, R143: `6XNN` and `8XY0` write one register and nothing else. -/
def Obligations.LoadsWriteOneRegister : Prop :=
  ∀ (s : State) (x y : Reg) (nn : Byte),
    wordDecodesTo (0x6000 + 0x100 * x.toNat + nn.toNat) (.ldVxNn x nn) ∧
    (∃ t, exec (.ldVxNn x nn) s = .next t ∧ t.getV x = nn ∧ onlyRegisters [x] s t ∧ changesRegistersOnly s t) ∧
    wordDecodesTo (0x8000 + 0x100 * x.toNat + 0x10 * y.toNat) (.ldVxVy x y) ∧
    (∃ t, exec (.ldVxVy x y) s = .next t ∧ t.getV x = s.getV y ∧ onlyRegisters [x] s t ∧ changesRegistersOnly s t)

/-- R142: `7XNN` adds modulo 256 and writes no flag. -/
def Obligations.AddImmediateWrapsWithoutFlag : Prop :=
  ∀ (s : State) (x : Reg) (nn : Byte), wordDecodesTo (0x7000 + 0x100 * x.toNat + nn.toNat) (.addVxNn x nn) ∧
    ∃ t, exec (.addVxNn x nn) s = .next t ∧
    (t.getV x).toNat = ((s.getV x).toNat + nn.toNat) % 256 ∧ onlyRegisters [x] s t ∧ changesRegistersOnly s t

/-- R144, R145, R146: the bitwise operations, and VF cleared last under `LOGIC_VF_RESET` = ON. -/
def Obligations.LogicClearsFlagAsConfigured : Prop :=
  ∀ (s : State) (x y : Reg),
    wordDecodesTo (0x8001 + 0x100 * x.toNat + 0x10 * y.toNat) (.orVxVy x y) ∧
    (∃ t, exec (.orVxVy x y) s = .next t ∧ changesRegistersOnly s t ∧
      ∀ r, t.getV r = if r = Reg.vf ∧ s.cfg.logicVfReset = .on then 0#8
        else if r = x then s.getV x ||| s.getV y else s.getV r) ∧
    wordDecodesTo (0x8002 + 0x100 * x.toNat + 0x10 * y.toNat) (.andVxVy x y) ∧
    (∃ t, exec (.andVxVy x y) s = .next t ∧ changesRegistersOnly s t ∧
      ∀ r, t.getV r = if r = Reg.vf ∧ s.cfg.logicVfReset = .on then 0#8
        else if r = x then s.getV x &&& s.getV y else s.getV r) ∧
    wordDecodesTo (0x8003 + 0x100 * x.toNat + 0x10 * y.toNat) (.xorVxVy x y) ∧
    (∃ t, exec (.xorVxVy x y) s = .next t ∧ changesRegistersOnly s t ∧
      ∀ r, t.getV r = if r = Reg.vf ∧ s.cfg.logicVfReset = .on then 0#8
        else if r = x then s.getV x ^^^ s.getV y else s.getV r)

/-- R147: `8XY4` adds modulo 256; VF, written last, is 1 exactly when the true sum exceeds 255. -/
def Obligations.AddSetsCarry : Prop :=
  ∀ (s : State) (x y : Reg), wordDecodesTo (0x8004 + 0x100 * x.toNat + 0x10 * y.toNat) (.addVxVy x y) ∧
    ∃ t, exec (.addVxVy x y) s = .next t ∧ changesRegistersOnly s t ∧
    onlyRegisters [x, Reg.vf] s t ∧
    (x ≠ Reg.vf → (t.getV x).toNat = ((s.getV x).toNat + (s.getV y).toNat) % 256) ∧
    (255 < (s.getV x).toNat + (s.getV y).toNat → t.getV Reg.vf = 1#8) ∧
    ((s.getV x).toNat + (s.getV y).toNat ≤ 255 → t.getV Reg.vf = 0#8)

/-- R148, R150: the subtractions; VF, written last, is NOT borrow. -/
def Obligations.SubtractionsSetNotBorrow : Prop :=
  ∀ (s : State) (x y : Reg),
    wordDecodesTo (0x8005 + 0x100 * x.toNat + 0x10 * y.toNat) (.subVxVy x y) ∧
    (∃ t, exec (.subVxVy x y) s = .next t ∧ changesRegistersOnly s t ∧ onlyRegisters [x, Reg.vf] s t ∧
      (x ≠ Reg.vf → (t.getV x).toNat = ((s.getV x).toNat + 256 - (s.getV y).toNat) % 256) ∧
      ((s.getV y).toNat ≤ (s.getV x).toNat → t.getV Reg.vf = 1#8) ∧
      ((s.getV x).toNat < (s.getV y).toNat → t.getV Reg.vf = 0#8)) ∧
    wordDecodesTo (0x8007 + 0x100 * x.toNat + 0x10 * y.toNat) (.subnVxVy x y) ∧
    (∃ t, exec (.subnVxVy x y) s = .next t ∧ changesRegistersOnly s t ∧ onlyRegisters [x, Reg.vf] s t ∧
      (x ≠ Reg.vf → (t.getV x).toNat = ((s.getV y).toNat + 256 - (s.getV x).toNat) % 256) ∧
      ((s.getV x).toNat ≤ (s.getV y).toNat → t.getV Reg.vf = 1#8) ∧
      ((s.getV y).toNat < (s.getV x).toNat → t.getV Reg.vf = 0#8))

/-- R149, R151: the shifts by one of the byte `SHIFT_SRC` chooses; VF, written last, is the bit shifted out. -/
def Obligations.ShiftsMoveOneBitOut : Prop :=
  ∀ (s : State) (x y : Reg) (src : Nat),
    ((s.cfg.shiftSrc = .vy ∧ src = (s.getV y).toNat) ∨ (s.cfg.shiftSrc = .vx ∧ src = (s.getV x).toNat)) →
    wordDecodesTo (0x8006 + 0x100 * x.toNat + 0x10 * y.toNat) (.shrVxVy x y) ∧
    (∃ t, exec (.shrVxVy x y) s = .next t ∧ changesRegistersOnly s t ∧ onlyRegisters [x, Reg.vf] s t ∧
      (x ≠ Reg.vf → (t.getV x).toNat = src / 2) ∧ (t.getV Reg.vf).toNat = src % 2) ∧
    wordDecodesTo (0x800E + 0x100 * x.toNat + 0x10 * y.toNat) (.shlVxVy x y) ∧
    (∃ t, exec (.shlVxVy x y) s = .next t ∧ changesRegistersOnly s t ∧ onlyRegisters [x, Reg.vf] s t ∧
      (x ≠ Reg.vf → (t.getV x).toNat = src * 2 % 256) ∧ (t.getV Reg.vf).toNat = src / 128)

/-! ### Control flow -/

/-- R170, R171, R172, R173: a skip moves `PC` by 4 when taken, else by 2, and changes nothing else. -/
def Obligations.SkipsMoveOnlyThePc : Prop :=
  ∀ (s : State) (x y : Reg) (nn : Byte),
    wordDecodesTo (0x3000 + 0x100 * x.toNat + nn.toNat) (.seVxNn x nn) ∧
    (∃ t, exec (.seVxNn x nn) s = .next t ∧ onlyChanges [.pc] s t ∧
      t.pc = if s.getV x = nn then s.pc + 4#16 else s.pc + 2#16) ∧
    wordDecodesTo (0x4000 + 0x100 * x.toNat + nn.toNat) (.sneVxNn x nn) ∧
    (∃ t, exec (.sneVxNn x nn) s = .next t ∧ onlyChanges [.pc] s t ∧
      t.pc = if s.getV x = nn then s.pc + 2#16 else s.pc + 4#16) ∧
    wordDecodesTo (0x5000 + 0x100 * x.toNat + 0x10 * y.toNat) (.seVxVy x y) ∧
    (∃ t, exec (.seVxVy x y) s = .next t ∧ onlyChanges [.pc] s t ∧
      t.pc = if s.getV x = s.getV y then s.pc + 4#16 else s.pc + 2#16) ∧
    wordDecodesTo (0x9000 + 0x100 * x.toNat + 0x10 * y.toNat) (.sneVxVy x y) ∧
    (∃ t, exec (.sneVxVy x y) s = .next t ∧ onlyChanges [.pc] s t ∧
      t.pc = if s.getV x = s.getV y then s.pc + 2#16 else s.pc + 4#16)

/-- R175, R176: the jumps; the sum of `BNNN` does not wrap. -/
def Obligations.JumpsGoToTheirTargets : Prop :=
  ∀ (s : State) (nnn : Addr12),
    wordDecodesTo (0x1000 + nnn.toNat) (.jpNnn nnn) ∧
    (∃ t, exec (.jpNnn nnn) s = .next t ∧ t.pc.toNat = nnn.toNat ∧ onlyChanges [.pc] s t) ∧
    wordDecodesTo (0xB000 + nnn.toNat) (.jpV0Nnn nnn) ∧
    (∃ t, exec (.jpV0Nnn nnn) s = .next t ∧ onlyChanges [.pc] s t ∧
      (s.cfg.jumpOffsetReg = .v0 → t.pc.toNat = nnn.toNat + (s.getV 0#4).toNat) ∧
      (s.cfg.jumpOffsetReg = .vx → t.pc.toNat = nnn.toNat + (s.getV (nnn.extractLsb' 8 4)).toNat))

/-- R177: `2NNN` pushes the address after it and jumps; with a full stack it faults and changes nothing else. -/
def Obligations.CallPushesOrOverflows : Prop :=
  ∀ (s : State) (nnn : Addr12), wordDecodesTo (0x2000 + nnn.toNat) (.callNnn nnn) ∧ (s.stack.length = s.cfg.stackDepth →
    (s.sp < s.cfg.stackDepth → ∃ t, exec (.callNnn nnn) s = .next t ∧ t.stackAt s.sp = s.pc + 2#16 ∧
      (∀ k, k ≠ s.sp → t.stackAt k = s.stackAt k) ∧ t.sp = s.sp + 1 ∧ t.pc.toNat = nnn.toNat ∧
      onlyChanges [.stack, .pc] s t) ∧
    (s.sp = s.cfg.stackDepth → ∃ t, exec (.callNnn nnn) s = .next t ∧
      recordsFault .stackOverflow s.fetchedWord 0#17 s t))

/-- R178: `00EE` pops the return address, the entry keeping its value; with an empty stack it faults. "CALL followed by
RET restores PC": whatever the subroutine did in between, if it left the return stack as the call did, the return comes
back to the instruction after the call with the stack as it was before the call. -/
def Obligations.ReturnPopsOrUnderflows : Prop :=
  wordDecodesTo 0x00EE .ret ∧
  (∀ s : State,
    (0 < s.sp → ∃ t, exec .ret s = .next t ∧ t.sp = s.sp - 1 ∧ t.pc = s.stackAt (s.sp - 1) ∧ t.stack = s.stack ∧
      onlyChanges [.stack, .pc] s t) ∧
    (s.sp = 0 → ∃ t, exec .ret s = .next t ∧ recordsFault .stackUnderflow s.fetchedWord 0#17 s t)) ∧
  (∀ (s t u : State) (nnn : Addr12), s.stack.length = s.cfg.stackDepth → s.sp < s.cfg.stackDepth →
    exec (.callNnn nnn) s = .next t → u.sp = t.sp → u.stack = t.stack →
    ∃ w, exec .ret u = .next w ∧ w.pc = s.pc + 2#16 ∧ w.sp = s.sp ∧ ∀ k, k ≠ s.sp → w.stackAt k = s.stackAt k)

/-! ### Display -/

/-- R201: `00E0` makes every pixel 0 and leaves VF and everything else. -/
def Obligations.ClearScreenBlanksEveryPixel : Prop :=
  ∀ s : State, wordDecodesTo 0x00E0 .cls ∧
    ∃ t, exec .cls s = .next t ∧ (∀ px py, Frame.pixel t.fb px py = false) ∧ t.pc = s.pc + 2#16 ∧
    onlyChanges [.fb, .pc] s t

/-- R202 to R205: `DXYN` toggles exactly the sprite's pixels, wrapped at the edges; VF is 1 exactly when one of them
was 1. With N = 0 nothing is drawn, no byte is read and VF is 0. A sprite byte above 0xFFF faults before any pixel
changes. (R202's corner case of a second draw stands in `DrawTwiceRestoresTheFrame`.) -/
def Obligations.DrawTogglesTheSprite : Prop :=
  ∀ (s : State) (x y : Reg) (n : BitVec 4),
    wordDecodesTo (0xD000 + 0x100 * x.toNat + 0x10 * y.toNat + n.toNat) (.drwVxVyN x y n) ∧
    (n.toNat = 0 ∨ s.i.toNat + n.toNat ≤ 0x1000 → ∃ t, exec (.drwVxVyN x y n) s = .next t ∧
      (∀ px py, px < 64 → py < 32 → s.spriteToggles x y n px py → Frame.pixel t.fb px py = !Frame.pixel s.fb px py) ∧
      (∀ px py, px < 64 → py < 32 → ¬s.spriteToggles x y n px py → Frame.pixel t.fb px py = Frame.pixel s.fb px py) ∧
      ((∃ px py, px < 64 ∧ py < 32 ∧ s.spriteToggles x y n px py ∧ Frame.pixel s.fb px py = true) →
        t.getV Reg.vf = 1#8) ∧
      ((¬∃ px py, px < 64 ∧ py < 32 ∧ s.spriteToggles x y n px py ∧ Frame.pixel s.fb px py = true) →
        t.getV Reg.vf = 0#8) ∧
      onlyRegisters [Reg.vf] s t ∧ t.pc = s.pc + 2#16 ∧ onlyChanges [.fb, .v, .pc] s t) ∧
    (0 < n.toNat ∧ 0x1000 < s.i.toNat + n.toNat → ∃ t, exec (.drwVxVyN x y n) s = .next t ∧
      recordsFault .memoryOutOfBounds s.fetchedWord (BitVec.ofNat 17 (max s.i.toNat 0x1000)) s t)

/-- R202's corner case: the same sprite drawn twice at the same place restores the framebuffer. The second draw sets VF
exactly when the sprite toggles a pixel that was 0 at first: with the screen clear under the sprite, that is when the
sprite has any set bit, as the corner case says (log 20). Where X or Y is F the first draw may change a coordinate; the
premises say that the place is the same. -/
def Obligations.DrawTwiceRestoresTheFrame : Prop :=
  ∀ (s t : State) (x y : Reg) (n : BitVec 4), n.toNat = 0 ∨ s.i.toNat + n.toNat ≤ 0x1000 →
    exec (.drwVxVyN x y n) s = .next t →
    (t.getV x).toNat % 64 = (s.getV x).toNat % 64 → (t.getV y).toNat % 32 = (s.getV y).toNat % 32 →
    ∃ u, exec (.drwVxVyN x y n) t = .next u ∧ u.fb = s.fb ∧
      ((∃ px py, px < 64 ∧ py < 32 ∧ s.spriteToggles x y n px py ∧ Frame.pixel s.fb px py = false) →
        u.getV Reg.vf = 1#8) ∧
      ((¬∃ px py, px < 64 ∧ py < 32 ∧ s.spriteToggles x y n px py ∧ Frame.pixel s.fb px py = false) →
        u.getV Reg.vf = 0#8)

/-! ### Keys and timers -/

/-- R221, R222, R223: the key-tests read the key numbered by the low nibble of VX in `KP`. -/
def Obligations.KeyTestsSkipOnTheSample : Prop :=
  ∀ (s : State) (x : Reg),
    wordDecodesTo (0xE09E + 0x100 * x.toNat) (.skpVx x) ∧
    (∃ t, exec (.skpVx x) s = .next t ∧ onlyChanges [.pc] s t ∧
      t.pc = if s.kp.getLsbD ((s.getV x).toNat % 16) then s.pc + 4#16 else s.pc + 2#16) ∧
    wordDecodesTo (0xE0A1 + 0x100 * x.toNat) (.sknpVx x) ∧
    (∃ t, exec (.sknpVx x) s = .next t ∧ onlyChanges [.pc] s t ∧
      t.pc = if s.kp.getLsbD ((s.getV x).toNat % 16) then s.pc + 2#16 else s.pc + 4#16)

/-- R225: `FX0A` enters the key-wait sub-state with the sample, looks for no key, and reports WAITING. -/
def Obligations.KeyWaitDispatchOnlyEntersTheWait : Prop :=
  ∀ (s : State) (x : Reg), wordDecodesTo (0xF00A + 0x100 * x.toNat) (.ldVxK x) ∧
    ∃ t, exec (.ldVxK x) s = .next t ∧ t.wait.active = true ∧ t.wait.x = x ∧
    t.wait.prev = s.kp ∧ t.pc = s.pc + 2#16 ∧ onlyChanges [.wait, .pc] s t ∧
    (s.run = .running → stepReport s t = .waiting)

/-- R226: the key-wait poll in both modes. With no candidate it only keeps the sample (PRESS_EDGE) and reports WAITING;
else the lowest-numbered candidate goes to the register waited for, and no instruction is fetched. -/
def Obligations.KeyWaitPollTakesTheLowestCandidate : Prop :=
  ∀ s : State, s.run = .running → s.wait.active = true →
    ((∀ k, k < 16 → ¬s.canComplete k) → ∃ t, interpStep s = .next t ∧ t.wait.active = true ∧ t.wait.x = s.wait.x ∧
      (s.cfg.keywaitMode = .pressEdge → t.wait.prev = s.kp) ∧
      (s.cfg.keywaitMode = .level → t.wait.prev = s.wait.prev) ∧ onlyChanges [.wait] s t ∧ stepReport s t = .waiting) ∧
    (∀ k, k < 16 → s.canComplete k → (∀ j, j < k → ¬s.canComplete j) → ∃ t, interpStep s = .next t ∧
      (t.getV s.wait.x).toNat = k ∧ onlyRegisters [s.wait.x] s t ∧ t.wait.active = false ∧ t.wait.x = s.wait.x ∧
      t.wait.prev = s.wait.prev ∧ onlyChanges [.v, .wait] s t ∧ stepReport s t = .ok)

/-- R228, R229, R230: the timer instructions move one byte between a register and a timer; the sound level follows
`ST` at once. -/
def Obligations.TimerInstructionsMoveOneByte : Prop :=
  ∀ (s : State) (x : Reg),
    wordDecodesTo (0xF007 + 0x100 * x.toNat) (.ldVxDt x) ∧
    (∃ t, exec (.ldVxDt x) s = .next t ∧ t.getV x = s.dt ∧ onlyRegisters [x] s t ∧ changesRegistersOnly s t) ∧
    wordDecodesTo (0xF015 + 0x100 * x.toNat) (.ldDtVx x) ∧
    (∃ t, exec (.ldDtVx x) s = .next t ∧ t.dt = s.getV x ∧ t.pc = s.pc + 2#16 ∧ onlyChanges [.dt, .pc] s t) ∧
    wordDecodesTo (0xF018 + 0x100 * x.toNat) (.ldStVx x) ∧
    (∃ t, exec (.ldStVx x) s = .next t ∧ t.st = s.getV x ∧ (t.soundActive = true ↔ s.getV x ≠ 0#8) ∧
      t.pc = s.pc + 2#16 ∧ onlyChanges [.st, .pc] s t)

/-! ### BCD, random, index, font, blocks -/

/-- R250: `FX33` stores the three decimal digits, `I` unchanged; out of range it faults and writes no byte. -/
def Obligations.BcdStoresThreeDigits : Prop :=
  ∀ (s : State) (x : Reg), wordDecodesTo (0xF033 + 0x100 * x.toNat) (.ldBVx x) ∧ (Memory.wf s.mem = true →
    (s.i.toNat + 3 ≤ 0x1000 → ∃ t, exec (.ldBVx x) s = .next t ∧
      (t.readByte s.i.toNat).toNat = (s.getV x).toNat / 100 ∧
      (t.readByte (s.i.toNat + 1)).toNat = (s.getV x).toNat / 10 % 10 ∧
      (t.readByte (s.i.toNat + 2)).toNat = (s.getV x).toNat % 10 ∧
      onlyBytes s.i.toNat 3 s t ∧ t.pc = s.pc + 2#16 ∧ onlyChanges [.mem, .pc] s t) ∧
    (0x1000 < s.i.toNat + 3 → ∃ t, exec (.ldBVx x) s = .next t ∧
      recordsFault .memoryOutOfBounds s.fetchedWord (BitVec.ofNat 17 (max s.i.toNat 0x1000)) s t))

/-- R252, R253 as the model holds the draws (log 4, the model's choice): `CXNN` loads the masked draw; the draw is the
Entropy agent's next answer, used up, or, where none is listed, a free value under a counter that advances. -/
def Obligations.RandomLoadsOneMaskedDraw : Prop :=
  ∀ (s : State) (x : Reg) (nn : Byte), wordDecodesTo (0xC000 + 0x100 * x.toNat + nn.toNat) (.rndVxNn x nn) ∧
    ∃ t, exec (.rndVxNn x nn) s = .next t ∧
    (∀ b rest, s.env.answers = b :: rest → t.getV x = b &&& nn ∧ t.env.answers = rest ∧ t.env.draws = s.env.draws) ∧
    (s.env.answers = [] → t.getV x = Config.freeDraw s.env.draws &&& nn ∧ t.env.answers = [] ∧
      t.env.draws = s.env.draws + 1) ∧
    onlyRegisters [x] s t ∧ t.pc = s.pc + 2#16 ∧ onlyChanges [.v, .pc, .entropy] s t

/-- R254, R255: `ANNN` loads `I`; `FX1E` adds modulo 2^16 and writes VF only under OVERFLOW_FFF, after `I`. -/
def Obligations.IndexLoadAndAdd : Prop :=
  ∀ (s : State) (x : Reg) (nnn : Addr12),
    wordDecodesTo (0xA000 + nnn.toNat) (.ldINnn nnn) ∧
    (∃ t, exec (.ldINnn nnn) s = .next t ∧ t.i.toNat = nnn.toNat ∧ t.pc = s.pc + 2#16 ∧ onlyChanges [.i, .pc] s t) ∧
    wordDecodesTo (0xF01E + 0x100 * x.toNat) (.addIVx x) ∧
    (∃ t, exec (.addIVx x) s = .next t ∧ t.i.toNat = (s.i.toNat + (s.getV x).toNat) % 0x10000 ∧
      (s.cfg.fx1eVf = .unchanged → ∀ r, t.getV r = s.getV r) ∧
      (s.cfg.fx1eVf = .overflowFff →
        t.getV Reg.vf = if 0xFFF < s.i.toNat + (s.getV x).toNat then 1#8 else 0#8) ∧
      onlyRegisters [Reg.vf] s t ∧ t.pc = s.pc + 2#16 ∧ onlyChanges [.i, .v, .pc] s t)

/-- R256, R258: `FX29` points `I` at the sprite of the digit in the low nibble; with a valid `FONT_BASE` the sum does not
wrap. -/
def Obligations.FontLookupUsesTheLowNibble : Prop :=
  ∀ (s : State) (x : Reg), wordDecodesTo (0xF029 + 0x100 * x.toNat) (.ldFVx x) ∧
    ∃ t, exec (.ldFVx x) s = .next t ∧
    (configValid s.cfg = true → t.i.toNat = s.cfg.fontBase + 5 * ((s.getV x).toNat % 16)) ∧
    t.pc = s.pc + 2#16 ∧ onlyChanges [.i, .pc] s t

/-- R260, R262: `FX55` stores V0..VX at `I`.. and leaves `I` as `LDST_I_MODE` says; out of range it faults and writes
nothing. -/
def Obligations.BlockStoreWritesV0ToVX : Prop :=
  ∀ (s : State) (x : Reg), wordDecodesTo (0xF055 + 0x100 * x.toNat) (.ldMemVx x) ∧ (Memory.wf s.mem = true →
    (s.i.toNat + x.toNat < 0x1000 → ∃ t, exec (.ldMemVx x) s = .next t ∧
      (∀ r : Reg, r.toNat ≤ x.toNat → t.readByte (s.i.toNat + r.toNat) = s.getV r) ∧
      onlyBytes s.i.toNat (x.toNat + 1) s t ∧
      (s.cfg.ldstIMode = .incXPlus1 → t.i.toNat = s.i.toNat + x.toNat + 1) ∧
      (s.cfg.ldstIMode = .incX → t.i.toNat = s.i.toNat + x.toNat) ∧
      (s.cfg.ldstIMode = .unchanged → t.i = s.i) ∧
      t.pc = s.pc + 2#16 ∧ onlyChanges [.mem, .i, .pc] s t) ∧
    (0x1000 ≤ s.i.toNat + x.toNat → ∃ t, exec (.ldMemVx x) s = .next t ∧
      recordsFault .memoryOutOfBounds s.fetchedWord (BitVec.ofNat 17 (max s.i.toNat 0x1000)) s t))

/-- R261, R262: `FX65` loads V0..VX from `I`.. and leaves `I` as `LDST_I_MODE` says; out of range it faults and changes
no register and not `I`. -/
def Obligations.BlockLoadReadsV0ToVX : Prop :=
  ∀ (s : State) (x : Reg),
    wordDecodesTo (0xF065 + 0x100 * x.toNat) (.ldVxMem x) ∧
    (s.i.toNat + x.toNat < 0x1000 → ∃ t, exec (.ldVxMem x) s = .next t ∧
      (∀ r : Reg, r.toNat ≤ x.toNat → t.getV r = s.readByte (s.i.toNat + r.toNat)) ∧
      (∀ r : Reg, x.toNat < r.toNat → t.getV r = s.getV r) ∧
      (s.cfg.ldstIMode = .incXPlus1 → t.i.toNat = s.i.toNat + x.toNat + 1) ∧
      (s.cfg.ldstIMode = .incX → t.i.toNat = s.i.toNat + x.toNat) ∧
      (s.cfg.ldstIMode = .unchanged → t.i = s.i) ∧
      t.pc = s.pc + 2#16 ∧ onlyChanges [.v, .i, .pc] s t) ∧
    (0x1000 ≤ s.i.toNat + x.toNat → ∃ t, exec (.ldVxMem x) s = .next t ∧
      recordsFault .memoryOutOfBounds s.fetchedWord (BitVec.ofNat 17 (max s.i.toNat 0x1000)) s t)

/-- R94: a block store over the following instruction is seen by its fetch. -/
def Obligations.StoredWordIsTheNextFetched : Prop :=
  ∀ (s t : State) (x a b : Reg), Memory.wf s.mem = true → s.i.toNat + x.toNat < 0x1000 →
    exec (.ldMemVx x) s = .next t → b.toNat = a.toNat + 1 → b.toNat ≤ x.toNat →
    t.pc.toNat = s.i.toNat + a.toNat → t.fetchedWord = (s.getV a ++ s.getV b : Word)

/-! ### Fetch, decode and faults -/

/-- R84, R301 a and b, R309: the fetch checks in order, and what each records. -/
def Obligations.FetchFaultsInOrder : Prop :=
  ∀ s : State, s.run = .running → s.wait.active = false →
    (0xFFF < s.pc.toNat → ∃ t, interpStep s = .next t ∧
      recordsFault .memoryOutOfBounds 0#16 (BitVec.ofNat 17 s.pc.toNat) s t) ∧
    (s.pc.toNat = 0xFFF → ∃ t, interpStep s = .next t ∧ recordsFault .memoryOutOfBounds 0#16 0x1000#17 s t) ∧
    (s.pc.toNat < 0xFFF → s.pc.toNat % 2 = 1 → s.cfg.oddPc = .fault → ∃ t, interpStep s = .next t ∧
      recordsFault .memoryOutOfBounds 0#16 (BitVec.ofNat 17 s.pc.toNat) s t) ∧
    (s.pc.toNat < 0xFFF → s.pc.toNat % 2 = 0 ∨ s.cfg.oddPc = .allow →
      ∀ i, decodeWord (s.readByte s.pc.toNat ++ s.readByte (s.pc.toNat + 1) : Word) = .ok i → interpStep s = exec i s)

/-- R304: an invalid word faults under FATAL; under SKIP it is a no-op that sets `INVALID_SEEN` (R113, R40). -/
def Obligations.InvalidWordFollowsThePolicy : Prop :=
  ∀ (s : State) (r : DecodeReject), s.run = .running → s.wait.active = false → s.fetchFault = none →
    decodeWord s.fetchedWord = .reject r →
    (s.cfg.invalidOpcode = .fatal → ∃ t, interpStep s = .next t ∧
      recordsFault .invalidOpcode s.fetchedWord 0#17 s t) ∧
    (s.cfg.invalidOpcode = .skip → ∃ t, interpStep s = .next t ∧ t.pc = s.pc + 2#16 ∧ t.invalidSeen = true ∧
      onlyChanges [.pc, .invalidSeen] s t)

/-- R305, R306: whatever instruction faults, the step writes the fault record and HALTED and nothing else; the record
holds the address and the word of the faulting instruction (0 where the fetch faulted), and the step reports the fault;
no later Interpreter step does anything. -/
def Obligations.FaultsArePrecise : Prop :=
  ∀ s t : State, s.run = .running → interpStep s = .next t → t.run ≠ .running →
    onlyChanges [.fault, .run] s t ∧ t.run = .halted ∧ t.fault.pc = s.pc ∧
    t.fault.op = (if s.fetchFault = none then s.fetchedWord else 0#16) ∧ t.fault.code ≠ .none ∧
    (t.fault.code ≠ .memoryOutOfBounds → t.fault.addr = 0#17) ∧ stepReport s t = .faulted t.fault.code ∧
    interpStep t = .next t

/-- R300, R302, R303, R301 c: the only instructions that fault, each with its own fault; a data fault reports an address
above 0xFFF. -/
def Obligations.OnlyListedInstructionsFault : Prop :=
  ∀ (i : Instr) (s t : State), s.run = .running → exec i s = .next t → t.run ≠ .running →
    ((∃ nnn, i = .callNnn nnn) ∧ s.sp = s.cfg.stackDepth ∧ t.fault.code = .stackOverflow) ∨
    (i = .ret ∧ s.sp = 0 ∧ t.fault.code = .stackUnderflow) ∨
    (((∃ x y n, i = .drwVxVyN x y n) ∨ (∃ x, i = .ldBVx x) ∨ (∃ x, i = .ldMemVx x) ∨ (∃ x, i = .ldVxMem x)) ∧
      t.fault.code = .memoryOutOfBounds ∧ 0xFFF < t.fault.addr.toNat)

/-- A step runs the decoded instruction (R113, R320): it takes the Core's move off the agenda, executes the instruction
at `PC`, and then the Scheduler trips the Fuse and exits after a fault, or counts the step. -/
def Obligations.StepRunsTheDecodedInstruction : Prop :=
  ∀ (s t : State) (i : Instr), s.FetchesNext → decode s.fetchBytes = .ok (i, []) → exec i s.dropMove = .next t →
    (t.run = .running → step s = .next { t with batchLeft := t.batchLeft - 1,
                                                sched := if t.batchLeft - 1 = 0 then .timer else .batch }) ∧
    (t.run ≠ .running → step s = .next { t with fuse := true, sched := .exit })

/-- Words written out from the encodings of R114 decode to their instructions, and neighbours are refused (R115). -/
def Obligations.ReferenceWordsDecode : Prop :=
  decodeWord 0x6005#16 = .ok (.ldVxNn 0#4 5#8) ∧ decodeWord 0x8014#16 = .ok (.addVxVy 0#4 1#4) ∧
  decodeWord 0x00E0#16 = .ok .cls ∧ decodeWord 0x1208#16 = .ok (.jpNnn 0x208#12) ∧
  decodeWord 0xDAB5#16 = .ok (.drwVxVyN 0xA#4 0xB#4 5#4) ∧ decodeWord 0xE59E#16 = .ok (.skpVx 5#4) ∧
  decodeWord 0xF265#16 = .ok (.ldVxMem 2#4) ∧ decodeWord 0x5121#16 = .reject .class5 ∧
  decodeWord 0x0000#16 = .reject .class0

/-- R110, R114: decoding the encoded instruction gives it back, whatever bytes follow, for every instruction and every
operand. -/
def Obligations.DecodeOfEncodeIsTheInstruction : Prop :=
  ∀ (i : Instr) (rest : List Byte), decode (encodeBytes i ++ rest) = .ok (i, rest)

/-- R114: a word that decodes is the word of the instruction it decodes to, so no bit of it is ignored. -/
def Obligations.EncodeOfDecodeIsTheWord : Prop :=
  ∀ (w : Word) (i : Instr), decodeWord w = .ok i → encode i = w

/-- R114: the valid words are exactly those that match a row of the table, no two rows match the same word, and a valid
word is the instruction of the row it matches. -/
def Obligations.ValidWordsMatchExactlyOneRow : Prop :=
  (∀ w : Word, (∃ i, decodeWord w = .ok i) ↔ ∃ r ∈ opcodeTable, r.matchesWord w = true) ∧
  (∀ (w : Word) (r q : OpcodeRow), r ∈ opcodeTable → q ∈ opcodeTable → r.matchesWord w = true → q.matchesWord w = true →
    r = q) ∧
  (∀ (w : Word) (i : Instr), decodeWord w = .ok i → i.row.matchesWord w = true)

/-! ### Scheduler, timers and Fuse -/

/-- R320, R323: the transitions of the Scheduler FSM, one clause a row of its table, and no move but a Core step, a tick, a
load (R372) or a reset (R370) changes `SCHED` or `BATCH_LEFT`. The rows out of SLEEP are those of a loaded core: R370
enables no tick while UNLOADED (log 18). The clauses of a move with no row (a Core move in SLEEP or EXIT, a tick in BATCH,
TIMER or EXIT, which R321 neither enables nor queues, and a tick while UNLOADED) rest on the model's choice, log 3
(and log 18, from R370): such a move changes nothing. -/
def Obligations.SchedulerFollowsItsTable : Prop :=
  ∀ s : State,
    (s.sched = .sleep → s.run ≠ .unloaded → s.nextMove = .tick → s.fuse = true → ∃ t, step s = .next t ∧
      t.run = .halted ∧ t.sched = .exit ∧ t.batchLeft = s.batchLeft ∧ onlyChanges [.run, .sched, .agenda] s t) ∧
    (s.sched = .sleep → s.run ≠ .unloaded → s.nextMove = .tick → s.fuse = false → ∃ t, step s = .next t ∧
      t.sched = .batch ∧ t.batchLeft = s.cfg.cyclesPerTick ∧ onlyChanges [.sched, .agenda] s t) ∧
    (s.sched = .sleep → s.nextMove = .core → ∃ t, step s = .next t ∧ onlyChanges [.agenda] s t) ∧
    (s.sched = .batch → s.nextMove = .core → ∀ u, interpStep s.dropMove = .next u → ∃ t, step s = .next t ∧
      ((∃ c, stepReport s u = .faulted c) → t.fuse = true ∧ t.sched = .exit ∧ t.run = .halted ∧ t.batchLeft = u.batchLeft ∧
        onlyChanges [.fuse, .sched] u t) ∧
      ((¬∃ c, stepReport s u = .faulted c) → t.batchLeft = u.batchLeft - 1 ∧
        (0 < u.batchLeft - 1 → t.sched = .batch) ∧ (u.batchLeft - 1 = 0 → t.sched = .timer) ∧
        onlyChanges [.sched] u t)) ∧
    (s.sched = .timer → s.nextMove = .core → ∃ t, step s = .next t ∧
      t.dt.toNat = s.dt.toNat - s.timerPending.toNat ∧ t.st.toNat = s.st.toNat - s.timerPending.toNat ∧
      t.timerPending = 0#8 ∧ t.batchLeft = s.batchLeft ∧
      (s.fuse = true → t.run = .halted ∧ t.sched = .exit) ∧ (s.fuse = false → t.run = s.run ∧ t.sched = .sleep) ∧
      onlyChanges [.dt, .st, .timerPending, .run, .sched, .agenda] s t) ∧
    (s.sched = .exit → s.nextMove = .core ∨ s.nextMove = .tick → ∃ t, step s = .next t ∧ onlyChanges [.agenda] s t) ∧
    (s.sched = .batch ∨ s.sched = .timer ∨ s.run = .unloaded → s.nextMove = .tick →
      ∃ t, step s = .next t ∧ onlyChanges [.agenda] s t) ∧
    (s.nextMove ≠ .core → s.nextMove ≠ .tick → s.nextMove ≠ .reset → (∀ image, s.nextMove ≠ .load image) →
      ∀ t, step s = .next t → t.sched = s.sched ∧ t.batchLeft = s.batchLeft)

/-- Log 2, log 3 (the model's choice): a move that its rule does not enable is taken off the list and changes nothing else.
When a move is enabled is `Move.enabled`, from R211, R241, R320, R321, R330, R370, R371 and log 7, log 8, log 18. -/
def Obligations.MovesNotEnabledChangeNothing : Prop :=
  ∀ s : State, s.nextMove.enabled s = false → ∃ t, step s = .next t ∧ t.env.agenda = s.env.agenda.tail ∧
    onlyChanges [.agenda] s t

/-- R330, R331: a strobe counts one, up to 255, in a running run and does nothing in any other state; any number of strobes during a run and one timer phase take that many from each timer, clamped at 0;
the saturation of the counter is unobservable. -/
def Obligations.TimerPhaseAppliesEveryStrobe : Prop :=
  (∀ s : State, s.nextMove = .timerTick → ∃ t, step s = .next t ∧
    (s.run = .running ∧ s.sched ≠ .exit → t.timerPending.toNat = min (s.timerPending.toNat + 1) 255 ∧
      onlyChanges [.timerPending, .agenda] s t) ∧
    (s.run ≠ .running ∨ s.sched = .exit → onlyChanges [.agenda] s t)) ∧
  ∀ (s : State) (n : Nat), s.run = .running → s.sched ≠ .exit →
    ((strobeMove^[n] s).timerPhase.dt).toNat = s.dt.toNat - (s.timerPending.toNat + n) ∧
    ((strobeMove^[n] s).timerPhase.st).toNat = s.st.toNat - (s.timerPending.toNat + n) ∧
    (strobeMove^[n] s).timerPhase.timerPending = 0#8 ∧
    (strobeMove^[n] s).timerPending.toNat = min (s.timerPending.toNat + n) 255 ∧
    onlyChanges [.timerPending] s (strobeMove^[n] s)

/-- R340, R342: a trip sets the Fuse and nothing else; once set it stays set through every step but the reset that starts
a new run, which is not possible during one (log 7). -/
def Obligations.FuseStaysTripped : Prop :=
  (∀ s : State, s.nextMove = .trip → ∃ t, step s = .next t ∧ t.fuse = true ∧ onlyChanges [.fuse, .agenda] s t) ∧
  (∀ s t : State, step s = .next t → s.fuse = true →
    t.fuse = true ∨ (s.nextMove = .reset ∧ (s.run = .unloaded ∨ s.sched = .exit)))

/-- R325: in EXIT nothing of the Core changes any more; only the snapshot and key crossings act, until a reset. -/
def Obligations.ExitIsTerminal : Prop :=
  ∀ s t : State, s.Inv → s.sched = .exit → s.nextMove ≠ .reset → step s = .next t →
    t.sched = .exit ∧ t.run = .halted ∧ t.fuse = true ∧ onlyChanges [.snap, .ku, .kp, .agenda] s t

/-- R343, with no further outside move listed (the model's default order, log 2): from every legal state of a run whose
Fuse is tripped, the run has ended after at most `CYCLES_PER_TICK` + 18 moves: the rest of the batch and its timer phase,
or in SLEEP at most one capture, 16 key copies and one strobe and then the tick that sees the Fuse. -/
def Obligations.TripEndsTheRunWithinOneTick : Prop :=
  ∀ s : State, s.Inv → s.run ≠ .unloaded → s.fuse = true → s.env.agenda = [] →
    ∃ t, Host.Core.run Sys2Proof.core (s.cfg.cyclesPerTick + 18) s = .next t ∧ t.sched = .exit ∧ t.run = .halted ∧
      t.fuse = true

/-- R343, under every interleaving: once the Fuse is tripped in a run, no move of any agent raises the number of Core
steps left, every Core step lowers it, and it is at most `CYCLES_PER_TICK` + 1 (a whole batch and its timer phase). -/
def Obligations.TripBoundsTheCoreStepsLeft : Prop :=
  ∀ s : State, s.Inv → s.run ≠ .unloaded → s.fuse = true → s.nextMove ≠ .reset →
    s.coreStepsToExit ≤ s.cfg.cyclesPerTick + 1 ∧ (s.coreStepsToExit = 0 ↔ s.sched = .exit) ∧
    ∃ t, step s = .next t ∧ t.fuse = true ∧ t.coreStepsToExit ≤ s.coreStepsToExit ∧
      (s.coreStepNext → t.coreStepsToExit < s.coreStepsToExit)

/-! ### Fairness (R8) -/

/-- R8, of the machine by itself (its order is log 2's): every unending run of `step` is fair, whatever moves are listed at
first. In it ticks, strobes, key copies and captures go on coming as long as each is enabled. -/
def Obligations.EveryRunByItselfIsFair : Prop :=
  ∀ r : Nat → State, runsByItself r → fair (ownSchedule r) r

/-- R211, R241, under every fair schedule: a pending snapshot request is captured, the whole frame of that moment; and a
key whose `KU` bit settles has its `KP` bit follow. Resets, which belong between runs, are left out. -/
def Obligations.FairRunsCompleteEveryCrossing : Prop :=
  ∀ (moves : Schedule) (r : Nat → State), runsUnder moves r → fair moves r → (∀ n, moves n ≠ .reset) →
    (∀ n, (r n).snapReq = true → ∃ k, n ≤ k ∧ moves k = .snapCapture ∧ (r k).snapReq = true ∧
      (r (k + 1)).snap = (r k).fb ∧ (r (k + 1)).snapshotRead = some (r k).fb) ∧
    (∀ (key : BitVec 4) (n : Nat), (∀ k, n ≤ k → (r k).ku.getLsbD key.toNat = (r n).ku.getLsbD key.toNat) →
      ∃ k, n ≤ k ∧ ∀ j, k ≤ j → (r j).kp.getLsbD key.toNat = (r n).ku.getLsbD key.toNat)

/-- R343 with R8, under every fair schedule: once the Fuse of a run is tripped, from any legal state the run reaches EXIT,
whatever the other agents and the host do. -/
def Obligations.FairRunsEndAfterATrip : Prop :=
  ∀ (moves : Schedule) (r : Nat → State), runsUnder moves r → fair moves r →
    ∀ n, (r n).Inv → (r n).run ≠ .unloaded → (r n).fuse = true → ∃ k, n ≤ k ∧ (r k).sched = .exit

/-! ### Other agents and the host -/

/-- R240: `Set` writes one bit of `KU`, which the UI host can read; R241 but for its fairness (`FairRunsCompleteEveryCrossing`): InputSync copies one bit to `KP`; no other move but a reset changes either. -/
def Obligations.KeysCrossOneBitAtATime : Prop :=
  (∀ (s : State) (k : BitVec 4) (p : Bool), s.nextMove = .setKey k p → ∃ t, step s = .next t ∧
    t.ku.getLsbD k.toNat = p ∧ (∀ j, j < 16 → j ≠ k.toNat → t.ku.getLsbD j = s.ku.getLsbD j) ∧
    t.keySnapshot = t.ku ∧ onlyChanges [.ku, .agenda] s t) ∧
  (∀ (s : State) (k : BitVec 4), s.nextMove = .inputSync k → ∃ t, step s = .next t ∧
    t.kp.getLsbD k.toNat = s.ku.getLsbD k.toNat ∧ (∀ j, j < 16 → j ≠ k.toNat → t.kp.getLsbD j = s.kp.getLsbD j) ∧
    onlyChanges [.kp, .agenda] s t) ∧
  (∀ s t : State, step s = .next t → s.nextMove ≠ .reset →
    ((∀ k p, s.nextMove ≠ .setKey k p) → t.ku = s.ku) ∧ ((∀ k, s.nextMove ≠ .inputSync k) → t.kp = s.kp))

/-- R211 but for its fairness (`FairRunsCompleteEveryCrossing`), R210: a capture, enabled while a request is pending and in every Scheduler state, copies the whole frame and
clears the request; a request only sets it; `Snapshot()` then returns that frame; no other move but a reset changes
either. The clause of a capture with no request pending, which R211 does not
enable, is the model's choice, log 3: such a move changes nothing. -/
def Obligations.SnapshotIsOneWholeFrame : Prop :=
  (∀ s : State, s.nextMove = .snapshotRequest → ∃ t, step s = .next t ∧ t.snapReq = true ∧ t.snap = s.snap ∧
    t.snapshotRead = none ∧ onlyChanges [.snap, .agenda] s t) ∧
  (∀ s : State, s.nextMove = .snapCapture → s.snapReq = true → ∃ t, step s = .next t ∧ t.snap = s.fb ∧
    t.snapReq = false ∧ t.snapshotRead = some s.fb ∧ onlyChanges [.snap, .agenda] s t) ∧
  (∀ s : State, s.nextMove = .snapCapture → s.snapReq = false → ∃ t, step s = .next t ∧ onlyChanges [.agenda] s t) ∧
  (∀ s t : State, step s = .next t → s.nextMove ≠ .snapshotRequest → s.nextMove ≠ .snapCapture → s.nextMove ≠ .reset →
    t.snap = s.snap ∧ t.snapReq = s.snapReq)

/-- R213: the snapshot format, as 2048 bits in row-major order and as 256 bytes with the leftmost pixel in bit 7. -/
def Obligations.SnapshotFormatIsRowMajor : Prop :=
  ∀ f : Frame, (Frame.snapshotBytes f).length = 256 ∧ ∀ x y, x < 64 → y < 32 →
    Frame.snapshotBit f (64 * y + x) = Frame.pixel f x y ∧
    ((Frame.snapshotBytes f).getD (8 * y + x / 8) 0#8).getLsbD (7 - x % 8) = Frame.pixel f x y

/-- R96: memory is changed only by a load while UNLOADED and by an instruction's step (a reset, which is between runs,
aside). -/
def Obligations.OnlyLoadAndInstructionsWriteMemory : Prop :=
  ∀ (s t : State) (a : Nat), step s = .next t → s.nextMove ≠ .reset → t.readByte a ≠ s.readByte a →
    (s.nextMove = .core ∧ s.sched = .batch ∧ s.run = .running ∧ s.wait.active = false) ∨
    ((∃ image, s.nextMove = .load image) ∧ s.run = .unloaded)

/-- R350: the UI host, the CDC agents and the timer source cannot touch the Core's own state. -/
def Obligations.OutsideMovesLeaveTheCoreAlone : Prop :=
  ∀ s t : State, step s = .next t →
    (s.nextMove = .timerTick ∨ (∃ k, s.nextMove = .inputSync k) ∨ s.nextMove = .snapCapture ∨
      (∃ k p, s.nextMove = .setKey k p) ∨ s.nextMove = .snapshotRequest ∨ s.nextMove = .trip) →
    onlyChanges [.timerPending, .kp, .snap, .ku, .fuse, .agenda] s t

/-- R48 IF_CFG, R5: while UNLOADED a configure move fixes the parameters and gives the return stack `STACK_DEPTH` entries of
0 (log 8), and nothing else; no step changes the configuration once a program is loaded. -/
def Obligations.ConfigurationIsFixedInARun : Prop :=
  (∀ (s : State) (c : Config), s.nextMove = .configure c → s.run = .unloaded → ∃ t, step s = .next t ∧ t.cfg = c ∧
    t.stack = List.replicate c.stackDepth 0#16 ∧ t.sp = s.sp ∧ onlyChanges [.cfg, .stack, .agenda] s t) ∧
  (∀ s t : State, step s = .next t → s.run ≠ .unloaded → t.cfg = s.cfg)

/-- R372, R257: a load of 1 to 0xE00 bytes under a valid configuration puts the font of R257's table (one number a digit, its
five bytes in order, digits 0 to F) at `FONT_BASE`, sets every element as the rule lists, and leaves `KU`,
`KP`, `SNAP`, `SNAP_REQ` and `FUSE`. -/
def Obligations.LoadSetsTheWholeMachine : Prop :=
  ∀ (s : State) (image : List Byte), s.nextMove = .load image → s.run = .unloaded → configValid s.cfg = true →
    1 ≤ image.length → image.length ≤ 0xE00 → ∃ t, step s = .next t ∧
      (∀ d j, d < 16 → j < 5 → t.readByte (s.cfg.fontBase + 5 * d + j) =
        (([0xF0909090F0#40, 0x2060202070#40, 0xF010F080F0#40, 0xF010F010F0#40] ++
          [0x9090F01010#40, 0xF080F010F0#40, 0xF080F090F0#40, 0xF010204040#40] ++
          [0xF090F090F0#40, 0xF090F010F0#40, 0xF090F09090#40, 0xE090E090E0#40] ++
          [0xF0808080F0#40, 0xE0909090E0#40, 0xF080F080F0#40, 0xF080F08080#40]).getD d 0#40).extractLsb' (8 * (4 - j)) 8) ∧
      (∀ j, j < image.length → t.readByte (0x200 + j) = image.getD j 0#8) ∧
      (∀ a, ¬(s.cfg.fontBase ≤ a ∧ a < s.cfg.fontBase + 80) → ¬(0x200 ≤ a ∧ a < 0x200 + image.length) →
        t.readByte a = 0#8) ∧
      (∀ r, t.getV r = 0#8) ∧ t.i = 0#16 ∧ t.sp = 0 ∧ t.stack = List.replicate s.cfg.stackDepth 0#16 ∧
      t.dt = 0#8 ∧ t.st = 0#8 ∧ t.wait = KeyWait.clear ∧ t.fault = FaultRecord.clear ∧ t.invalidSeen = false ∧
      (∀ px py, Frame.pixel t.fb px py = false) ∧ t.timerPending = 0#8 ∧ t.sched = .sleep ∧ t.batchLeft = 0 ∧
      t.pc = 0x200#16 ∧ t.run = .running ∧ State.agreesOn .ku s t ∧ State.agreesOn .kp s t ∧ State.agreesOn .snap s t ∧
      State.agreesOn .fuse s t ∧ State.agreesOn .cfg s t ∧ State.agreesOn .entropy s t

/-- R371, with the check of R373: the answers of `Load` in their order, and a load that is rejected or not accepted changes no state; any other
is the load of R372 (`LoadSetsTheWholeMachine`). -/
def Obligations.RejectedLoadsChangeNothing : Prop :=
  (∀ (c : Config) (image : List Byte),
    (¬(1 ≤ c.cyclesPerTick ∧ 1 ≤ c.stackDepth ∧ 0 < c.cpuFreqHz ∧ 0 < c.timerHz ∧ c.fontBase + 79 ≤ 0x1FF) →
      loadReply c image = .badConfig) ∧
    (1 ≤ c.cyclesPerTick → 1 ≤ c.stackDepth → 0 < c.cpuFreqHz → 0 < c.timerHz → c.fontBase + 79 ≤ 0x1FF →
      (image.length = 0 → loadReply c image = .empty) ∧ (0xE00 < image.length → loadReply c image = .oversized) ∧
      (1 ≤ image.length → image.length ≤ 0xE00 → loadReply c image = .ok))) ∧
  (∀ (s : State) (image : List Byte), s.nextMove = .load image →
    (s.run ≠ .unloaded ∨ loadReply s.cfg image ≠ .ok → ∃ t, step s = .next t ∧ onlyChanges [.agenda] s t) ∧
    (s.run = .unloaded → loadReply s.cfg image = .ok → step s = .next (loadImage image s.dropMove)))

/-- R54, R370 (the values are the spec's own decisions, log 11; when a reset can happen is log 7): the machine right after
reset holds the reset values, and a reset move before a load or after EXIT sets every element to them, keeping the
configuration and the outside world; during a run, where R370 has no reset, the move changes nothing (log 3). -/
def Obligations.ResetValuesAreAsListed : Prop :=
  State.reset.HoldsResetValues ∧ State.reset.readStatus = ⟨0#16, 0#16, 0#16, 0#17⟩ ∧
  ∀ s : State, s.nextMove = .reset →
    (s.run = .unloaded ∨ s.sched = .exit → ∃ t, step s = .next t ∧ t.HoldsResetValues ∧ State.agreesOn .cfg s t ∧
      State.agreesOn .entropy s t ∧ t.env.agenda = s.env.agenda.tail) ∧
    (s.run ≠ .unloaded → s.sched ≠ .exit → ∃ t, step s = .next t ∧ onlyChanges [.agenda] s t)

/-- R50: the fields of `STATUS`. -/
def Obligations.StatusShowsEachField : Prop :=
  ∀ s : State,
    s.statusWord.toNat % 4 = (match s.run with | .unloaded => 0 | .running => 1 | .halted => 2) ∧
    s.statusWord.getLsbD 2 = s.wait.active ∧ s.statusWord.getLsbD 3 = s.fuse ∧
    s.statusWord.toNat / 16 % 8 = (match s.fault.code with
      | .none => 0 | .memoryOutOfBounds => 1 | .stackOverflow => 2 | .stackUnderflow => 3 | .invalidOpcode => 4) ∧
    s.statusWord.getLsbD 7 = s.invalidSeen ∧ (s.statusWord.getLsbD 8 = true ↔ s.st ≠ 0#8) ∧ s.statusWord.toNat < 512 ∧
    s.readStatus = ⟨s.statusWord, s.fault.pc, s.fault.op, s.fault.addr⟩

/-- How a program comes to run (R371, R372, R320, log 6): loaded from reset and ticked, the block stands before the first
instruction of the image with the whole batch to run. -/
def Obligations.LoadedImageIsFetchedFirst : Prop :=
  ∀ (image rest : List Byte) (i : Instr), image.length ≤ 0xE00 → decode image = .ok (i, rest) →
    ∃ t, Host.Core.run Sys2Proof.core 2
        { State.reset with env := { agenda := [.load image, .tick, .core], answers := [], draws := 0 } } = .next t ∧
      t.FetchesNext ∧ decode t.fetchBytes = .ok (i, []) ∧ t.pc = 0x200#16 ∧
      t.batchLeft = Config.reference.cyclesPerTick ∧ t.env.agenda = [.core]

/-- The host's way of placing one instruction (log 6, the model's own): the very next step runs it. -/
def Obligations.PlacedWordRunsNext : Prop :=
  ∀ (s : State) (w : Word) (i : Instr), Memory.wf s.mem = true → decodeWord w = .ok i →
    (s.withFetchWord 16 w.toNat).FetchesNext ∧
    decode (s.withFetchWord 16 w.toNat).fetchBytes = .ok (i, []) ∧
    step (s.withFetchWord 16 w.toNat) = onNext (exec i (s.readyToRun w)) (afterBatchStep (s.readyToRun w))

/-! ### The whole machine -/

/-- The legal states are closed under every step of every agent. -/
def Obligations.EveryStepKeepsTheInvariant : Prop :=
  ∀ s t : State, s.Inv → step s = .next t → t.Inv

/-- The machine right after reset is legal. -/
def Obligations.ResetMeetsTheInvariant : Prop := State.reset.Inv

/-- The model's choice, log 3 and log 5: every step of every agent answers a next state. A fault of the spec is taken by
the step that raises it (R305), and a move that is not enabled (in EXIT every Core move) is a step that changes nothing. -/
def Obligations.EveryStepHasANextState : Prop := ∀ s : State, ∃ t, step s = .next t

/-- R52: what an Interpreter step does to what a program can see depends on that alone. `ST`, `FUSE`, the fault record
before the step, `INVALID_SEEN`, `TIMER_PENDING`, `SNAP`, `KU` and the Scheduler's state cannot be read. -/
def Obligations.ProgramsSeeOnlyTheVisibleState : Prop :=
  ∀ s t : State, State.SameForProgram s t → ∃ s' t', interpStep s = .next s' ∧ interpStep t = .next t' ∧
    State.SameForProgram s' t' ∧ stepReport s s' = stepReport t t'

/-- Memory in its canonical form is determined by what it reads (log 12): equal contents are equal data. -/
def Obligations.CanonicalMemoryIsUnique : Prop :=
  ∀ m n : Memory, Memory.wf m = true → Memory.wf n = true → (∀ a, Memory.get m a = Memory.get n a) → m = n
end

