-- ==== Sys2Proof/Laws/Decode.lean ====
section
/-! SUPPORT. The fields of the words the encoder builds (spec/30_encoding.md R111), and the bytes of a word (R82). -/

namespace Sys2Proof

@[simp] theorem fieldC_wordXYN (c x y n : BitVec 4) : fieldC (wordXYN c x y n) = c := by
  apply BitVec.eq_of_getLsbD_eq; intro j hj
  simp only [fieldC, wordXYN, BitVec.getLsbD_extractLsb', BitVec.getLsbD_append]
  have h1 : ¬ (12 + j < 8) := by omega
  have h2 : ¬ (12 + j - 8 < 4) := by omega
  have h3 : 12 + j - 8 - 4 = j := by omega
  simp [hj, h1, h2, h3]

@[simp] theorem fieldX_wordXYN (c x y n : BitVec 4) : fieldX (wordXYN c x y n) = x := by
  apply BitVec.eq_of_getLsbD_eq; intro j hj
  simp only [fieldX, wordXYN, BitVec.getLsbD_extractLsb', BitVec.getLsbD_append]
  have h1 : ¬ (8 + j < 8) := by omega
  have h2 : 8 + j - 8 = j := by omega
  simp [hj, h1, h2]

@[simp] theorem fieldY_wordXYN (c x y n : BitVec 4) : fieldY (wordXYN c x y n) = y := by
  apply BitVec.eq_of_getLsbD_eq; intro j hj
  simp only [fieldY, wordXYN, BitVec.getLsbD_extractLsb', BitVec.getLsbD_append]
  have h1 : 4 + j < 8 := by omega
  have h2 : ¬ (4 + j < 4) := by omega
  have h3 : 4 + j - 4 = j := by omega
  simp [hj, h1, h2, h3]

@[simp] theorem fieldN_wordXYN (c x y n : BitVec 4) : fieldN (wordXYN c x y n) = n := by
  apply BitVec.eq_of_getLsbD_eq; intro j hj
  simp only [fieldN, wordXYN, BitVec.getLsbD_extractLsb', BitVec.getLsbD_append]
  have h3 : j < 8 := by omega
  simp [hj, h3]

@[simp] theorem fieldC_wordXNn (c x : BitVec 4) (nn : Byte) : fieldC (wordXNn c x nn) = c := by
  apply BitVec.eq_of_getLsbD_eq; intro j hj
  simp only [fieldC, wordXNn, BitVec.getLsbD_extractLsb', BitVec.getLsbD_append]
  have h1 : ¬ (12 + j < 8) := by omega
  have h2 : ¬ (12 + j - 8 < 4) := by omega
  have h3 : 12 + j - 8 - 4 = j := by omega
  simp [hj, h1, h2, h3]

@[simp] theorem fieldX_wordXNn (c x : BitVec 4) (nn : Byte) : fieldX (wordXNn c x nn) = x := by
  apply BitVec.eq_of_getLsbD_eq; intro j hj
  simp only [fieldX, wordXNn, BitVec.getLsbD_extractLsb', BitVec.getLsbD_append]
  have h1 : ¬ (8 + j < 8) := by omega
  have h2 : 8 + j - 8 = j := by omega
  simp [hj, h1, h2]

@[simp] theorem fieldNN_wordXNn (c x : BitVec 4) (nn : Byte) : fieldNN (wordXNn c x nn) = nn := by
  apply BitVec.eq_of_getLsbD_eq; intro j hj
  simp only [fieldNN, wordXNn, BitVec.getLsbD_extractLsb', BitVec.getLsbD_append]
  simp [hj]

@[simp] theorem fieldC_wordNnn (c : BitVec 4) (nnn : Addr12) : fieldC (wordNnn c nnn) = c := by
  apply BitVec.eq_of_getLsbD_eq; intro j hj
  simp only [fieldC, wordNnn, BitVec.getLsbD_extractLsb', BitVec.getLsbD_append]
  have h1 : ¬ (12 + j < 12) := by omega
  have h2 : 12 + j - 12 = j := by omega
  simp [hj, h1, h2]

@[simp] theorem fieldNNN_wordNnn (c : BitVec 4) (nnn : Addr12) : fieldNNN (wordNnn c nnn) = nnn := by
  apply BitVec.eq_of_getLsbD_eq; intro j hj
  simp only [fieldNNN, wordNnn, BitVec.getLsbD_extractLsb', BitVec.getLsbD_append]
  simp [hj]

/-- A word is its class, its two middle nibbles and its last nibble. -/
theorem wordXYN_fields (w : Word) : wordXYN (fieldC w) (fieldX w) (fieldY w) (fieldN w) = w := by
  apply BitVec.eq_of_getLsbD_eq; intro j hj
  simp only [fieldC, fieldX, fieldY, fieldN, wordXYN, BitVec.getLsbD_append, BitVec.getLsbD_extractLsb']
  have hcases : j = 0 ∨ j = 1 ∨ j = 2 ∨ j = 3 ∨ j = 4 ∨ j = 5 ∨ j = 6 ∨ j = 7 ∨ j = 8 ∨ j = 9 ∨ j = 10 ∨ j = 11 ∨
      j = 12 ∨ j = 13 ∨ j = 14 ∨ j = 15 := by omega
  rcases hcases with h | h | h | h | h | h | h | h | h | h | h | h | h | h | h | h <;> subst h <;> simp

/-- A word is its class, its register and its byte. -/
theorem wordXNn_fields (w : Word) : wordXNn (fieldC w) (fieldX w) (fieldNN w) = w := by
  apply BitVec.eq_of_getLsbD_eq; intro j hj
  simp only [fieldC, fieldX, fieldNN, wordXNn, BitVec.getLsbD_append, BitVec.getLsbD_extractLsb']
  have hcases : j < 8 ∨ j = 8 ∨ j = 9 ∨ j = 10 ∨ j = 11 ∨ j = 12 ∨ j = 13 ∨ j = 14 ∨ j = 15 := by omega
  rcases hcases with h | h | h | h | h | h | h | h | h
  · simp [h]
  all_goals subst h; simp

/-- A word is its class and its address. -/
theorem wordNnn_fields (w : Word) : wordNnn (fieldC w) (fieldNNN w) = w := by
  apply BitVec.eq_of_getLsbD_eq; intro j hj
  simp only [fieldC, fieldNNN, wordNnn, BitVec.getLsbD_append, BitVec.getLsbD_extractLsb']
  have hcases : j < 12 ∨ j = 12 ∨ j = 13 ∨ j = 14 ∨ j = 15 := by omega
  rcases hcases with h | h | h | h | h
  · simp [h]
  all_goals subst h; simp

/-- The number of a word of class, two registers and a nibble (R111). -/
theorem wordXYN_eq_ofNat (c x y n : BitVec 4) :
    wordXYN c x y n = BitVec.ofNat 16 (0x1000 * c.toNat + 0x100 * x.toNat + 0x10 * y.toNat + n.toNat) := by
  have h4 (a b : BitVec 4) : (a ++ b : Byte).toNat = 16 * a.toNat + b.toNat := by
    rw [BitVec.toNat_append, Nat.shiftLeft_eq, Nat.mul_comm]
    exact (Nat.two_pow_add_eq_or_of_lt (i := 4) b.isLt a.toNat).symm
  apply BitVec.eq_of_toNat_eq
  rw [wordXYN, BitVec.toNat_append, Nat.shiftLeft_eq, Nat.mul_comm,
    ← Nat.two_pow_add_eq_or_of_lt (i := 8) (BitVec.isLt _), h4, h4, BitVec.toNat_ofNat]
  omega

/-- The number of a word of class, register and byte (R111). -/
theorem wordXNn_eq_ofNat (c x : BitVec 4) (nn : Byte) :
    wordXNn c x nn = BitVec.ofNat 16 (0x1000 * c.toNat + 0x100 * x.toNat + nn.toNat) := by
  apply BitVec.eq_of_toNat_eq
  rw [wordXNn, BitVec.toNat_append, Nat.shiftLeft_eq, Nat.mul_comm,
    ← Nat.two_pow_add_eq_or_of_lt (i := 8) nn.isLt, BitVec.toNat_append, Nat.shiftLeft_eq, Nat.mul_comm c.toNat,
    ← Nat.two_pow_add_eq_or_of_lt (i := 4) x.isLt, BitVec.toNat_ofNat]
  omega

/-- The number of a word of class and address (R111). -/
theorem wordNnn_eq_ofNat (c : BitVec 4) (nnn : Addr12) :
    wordNnn c nnn = BitVec.ofNat 16 (0x1000 * c.toNat + nnn.toNat) := by
  apply BitVec.eq_of_toNat_eq
  rw [wordNnn, BitVec.toNat_append, Nat.shiftLeft_eq, Nat.mul_comm,
    ← Nat.two_pow_add_eq_or_of_lt (i := 12) nnn.isLt, BitVec.toNat_ofNat]
  omega

/-- The bytes of a word, read back big-endian, are the word (R82). -/
@[simp] theorem wordOfBytes_bytesOfWord (w : Word) : wordOfBytes (w.extractLsb' 8 8) (w.extractLsb' 0 8) = w := by
  apply BitVec.eq_of_getLsbD_eq; intro j hj
  simp only [wordOfBytes, BitVec.getLsbD_append, BitVec.getLsbD_extractLsb']
  by_cases h : j < 8
  · simp [h]
  · have h1 : j - 8 < 8 := by omega
    have h2 : 8 + (j - 8) = j := by omega
    simp [h, h1, h2]

/-- Decoding two bytes is decoding their word (R82, R110). -/
theorem decode_bytes (hi lo : Byte) (rest : List Byte) :
    decode (hi :: lo :: rest) =
      match decodeWord (wordOfBytes hi lo) with
      | .ok i => .ok (i, rest)
      | .reject r => .reject r := rfl

end Sys2Proof
end

