-- ==== Sys2Proof/Laws/State.lean ====
section
/-! SUPPORT. One lemma per field per update of the state, so that no later proof unfolds an update. -/

namespace Sys2Proof.Machine

section writeByteFields
variable (s : State) (a : Nat) (x : Byte)

@[simp] theorem State.writeByte_mem : (s.writeByte a x).mem = s.mem.write a x := rfl
@[simp] theorem State.writeByte_v : (s.writeByte a x).v = s.v := rfl
@[simp] theorem State.writeByte_i : (s.writeByte a x).i = s.i := rfl
@[simp] theorem State.writeByte_pc : (s.writeByte a x).pc = s.pc := rfl
@[simp] theorem State.writeByte_sp : (s.writeByte a x).sp = s.sp := rfl
@[simp] theorem State.writeByte_stack : (s.writeByte a x).stack = s.stack := rfl
@[simp] theorem State.writeByte_dt : (s.writeByte a x).dt = s.dt := rfl
@[simp] theorem State.writeByte_st : (s.writeByte a x).st = s.st := rfl
@[simp] theorem State.writeByte_wait : (s.writeByte a x).wait = s.wait := rfl
@[simp] theorem State.writeByte_run : (s.writeByte a x).run = s.run := rfl
@[simp] theorem State.writeByte_fault : (s.writeByte a x).fault = s.fault := rfl
@[simp] theorem State.writeByte_invalidSeen : (s.writeByte a x).invalidSeen = s.invalidSeen := rfl
@[simp] theorem State.writeByte_fb : (s.writeByte a x).fb = s.fb := rfl
@[simp] theorem State.writeByte_snap : (s.writeByte a x).snap = s.snap := rfl
@[simp] theorem State.writeByte_snapReq : (s.writeByte a x).snapReq = s.snapReq := rfl
@[simp] theorem State.writeByte_ku : (s.writeByte a x).ku = s.ku := rfl
@[simp] theorem State.writeByte_kp : (s.writeByte a x).kp = s.kp := rfl
@[simp] theorem State.writeByte_fuse : (s.writeByte a x).fuse = s.fuse := rfl
@[simp] theorem State.writeByte_sched : (s.writeByte a x).sched = s.sched := rfl
@[simp] theorem State.writeByte_batchLeft : (s.writeByte a x).batchLeft = s.batchLeft := rfl
@[simp] theorem State.writeByte_timerPending : (s.writeByte a x).timerPending = s.timerPending := rfl
@[simp] theorem State.writeByte_cfg : (s.writeByte a x).cfg = s.cfg := rfl
@[simp] theorem State.writeByte_env : (s.writeByte a x).env = s.env := rfl
@[simp] theorem State.getV_writeByte (reg : Reg) : (s.writeByte a x).getV reg = s.getV reg := rfl

end writeByteFields

section setVFields
variable (s : State) (r : Reg) (b : Byte)

@[simp] theorem State.setV_mem : (s.setV r b).mem = s.mem := rfl
@[simp] theorem State.setV_i : (s.setV r b).i = s.i := rfl
@[simp] theorem State.setV_pc : (s.setV r b).pc = s.pc := rfl
@[simp] theorem State.setV_sp : (s.setV r b).sp = s.sp := rfl
@[simp] theorem State.setV_stack : (s.setV r b).stack = s.stack := rfl
@[simp] theorem State.setV_dt : (s.setV r b).dt = s.dt := rfl
@[simp] theorem State.setV_st : (s.setV r b).st = s.st := rfl
@[simp] theorem State.setV_wait : (s.setV r b).wait = s.wait := rfl
@[simp] theorem State.setV_run : (s.setV r b).run = s.run := rfl
@[simp] theorem State.setV_fault : (s.setV r b).fault = s.fault := rfl
@[simp] theorem State.setV_invalidSeen : (s.setV r b).invalidSeen = s.invalidSeen := rfl
@[simp] theorem State.setV_fb : (s.setV r b).fb = s.fb := rfl
@[simp] theorem State.setV_snap : (s.setV r b).snap = s.snap := rfl
@[simp] theorem State.setV_snapReq : (s.setV r b).snapReq = s.snapReq := rfl
@[simp] theorem State.setV_ku : (s.setV r b).ku = s.ku := rfl
@[simp] theorem State.setV_kp : (s.setV r b).kp = s.kp := rfl
@[simp] theorem State.setV_fuse : (s.setV r b).fuse = s.fuse := rfl
@[simp] theorem State.setV_sched : (s.setV r b).sched = s.sched := rfl
@[simp] theorem State.setV_batchLeft : (s.setV r b).batchLeft = s.batchLeft := rfl
@[simp] theorem State.setV_timerPending : (s.setV r b).timerPending = s.timerPending := rfl
@[simp] theorem State.setV_cfg : (s.setV r b).cfg = s.cfg := rfl
@[simp] theorem State.setV_env : (s.setV r b).env = s.env := rfl
@[simp] theorem State.readByte_setV (addr : Nat) : (s.setV r b).readByte addr = s.readByte addr := rfl

end setVFields

section setIFields
variable (s : State) (w : Word)

@[simp] theorem State.setI_mem : (s.setI w).mem = s.mem := rfl
@[simp] theorem State.setI_v : (s.setI w).v = s.v := rfl
@[simp] theorem State.setI_i : (s.setI w).i = w := rfl
@[simp] theorem State.setI_pc : (s.setI w).pc = s.pc := rfl
@[simp] theorem State.setI_sp : (s.setI w).sp = s.sp := rfl
@[simp] theorem State.setI_stack : (s.setI w).stack = s.stack := rfl
@[simp] theorem State.setI_dt : (s.setI w).dt = s.dt := rfl
@[simp] theorem State.setI_st : (s.setI w).st = s.st := rfl
@[simp] theorem State.setI_wait : (s.setI w).wait = s.wait := rfl
@[simp] theorem State.setI_run : (s.setI w).run = s.run := rfl
@[simp] theorem State.setI_fault : (s.setI w).fault = s.fault := rfl
@[simp] theorem State.setI_invalidSeen : (s.setI w).invalidSeen = s.invalidSeen := rfl
@[simp] theorem State.setI_fb : (s.setI w).fb = s.fb := rfl
@[simp] theorem State.setI_snap : (s.setI w).snap = s.snap := rfl
@[simp] theorem State.setI_snapReq : (s.setI w).snapReq = s.snapReq := rfl
@[simp] theorem State.setI_ku : (s.setI w).ku = s.ku := rfl
@[simp] theorem State.setI_kp : (s.setI w).kp = s.kp := rfl
@[simp] theorem State.setI_fuse : (s.setI w).fuse = s.fuse := rfl
@[simp] theorem State.setI_sched : (s.setI w).sched = s.sched := rfl
@[simp] theorem State.setI_batchLeft : (s.setI w).batchLeft = s.batchLeft := rfl
@[simp] theorem State.setI_timerPending : (s.setI w).timerPending = s.timerPending := rfl
@[simp] theorem State.setI_cfg : (s.setI w).cfg = s.cfg := rfl
@[simp] theorem State.setI_env : (s.setI w).env = s.env := rfl
@[simp] theorem State.getV_setI (reg : Reg) : (s.setI w).getV reg = s.getV reg := rfl
@[simp] theorem State.readByte_setI (addr : Nat) : (s.setI w).readByte addr = s.readByte addr := rfl

end setIFields

section setPcFields
variable (s : State) (w : Word)

@[simp] theorem State.setPc_mem : (s.setPc w).mem = s.mem := rfl
@[simp] theorem State.setPc_v : (s.setPc w).v = s.v := rfl
@[simp] theorem State.setPc_i : (s.setPc w).i = s.i := rfl
@[simp] theorem State.setPc_pc : (s.setPc w).pc = w := rfl
@[simp] theorem State.setPc_sp : (s.setPc w).sp = s.sp := rfl
@[simp] theorem State.setPc_stack : (s.setPc w).stack = s.stack := rfl
@[simp] theorem State.setPc_dt : (s.setPc w).dt = s.dt := rfl
@[simp] theorem State.setPc_st : (s.setPc w).st = s.st := rfl
@[simp] theorem State.setPc_wait : (s.setPc w).wait = s.wait := rfl
@[simp] theorem State.setPc_run : (s.setPc w).run = s.run := rfl
@[simp] theorem State.setPc_fault : (s.setPc w).fault = s.fault := rfl
@[simp] theorem State.setPc_invalidSeen : (s.setPc w).invalidSeen = s.invalidSeen := rfl
@[simp] theorem State.setPc_fb : (s.setPc w).fb = s.fb := rfl
@[simp] theorem State.setPc_snap : (s.setPc w).snap = s.snap := rfl
@[simp] theorem State.setPc_snapReq : (s.setPc w).snapReq = s.snapReq := rfl
@[simp] theorem State.setPc_ku : (s.setPc w).ku = s.ku := rfl
@[simp] theorem State.setPc_kp : (s.setPc w).kp = s.kp := rfl
@[simp] theorem State.setPc_fuse : (s.setPc w).fuse = s.fuse := rfl
@[simp] theorem State.setPc_sched : (s.setPc w).sched = s.sched := rfl
@[simp] theorem State.setPc_batchLeft : (s.setPc w).batchLeft = s.batchLeft := rfl
@[simp] theorem State.setPc_timerPending : (s.setPc w).timerPending = s.timerPending := rfl
@[simp] theorem State.setPc_cfg : (s.setPc w).cfg = s.cfg := rfl
@[simp] theorem State.setPc_env : (s.setPc w).env = s.env := rfl
@[simp] theorem State.getV_setPc (reg : Reg) : (s.setPc w).getV reg = s.getV reg := rfl
@[simp] theorem State.readByte_setPc (addr : Nat) : (s.setPc w).readByte addr = s.readByte addr := rfl

end setPcFields

section advanceFields
variable (s : State)

@[simp] theorem State.advance_mem : (s.advance).mem = s.mem := rfl
@[simp] theorem State.advance_v : (s.advance).v = s.v := rfl
@[simp] theorem State.advance_i : (s.advance).i = s.i := rfl
@[simp] theorem State.advance_pc : (s.advance).pc = s.nextPc := rfl
@[simp] theorem State.advance_sp : (s.advance).sp = s.sp := rfl
@[simp] theorem State.advance_stack : (s.advance).stack = s.stack := rfl
@[simp] theorem State.advance_dt : (s.advance).dt = s.dt := rfl
@[simp] theorem State.advance_st : (s.advance).st = s.st := rfl
@[simp] theorem State.advance_wait : (s.advance).wait = s.wait := rfl
@[simp] theorem State.advance_run : (s.advance).run = s.run := rfl
@[simp] theorem State.advance_fault : (s.advance).fault = s.fault := rfl
@[simp] theorem State.advance_invalidSeen : (s.advance).invalidSeen = s.invalidSeen := rfl
@[simp] theorem State.advance_fb : (s.advance).fb = s.fb := rfl
@[simp] theorem State.advance_snap : (s.advance).snap = s.snap := rfl
@[simp] theorem State.advance_snapReq : (s.advance).snapReq = s.snapReq := rfl
@[simp] theorem State.advance_ku : (s.advance).ku = s.ku := rfl
@[simp] theorem State.advance_kp : (s.advance).kp = s.kp := rfl
@[simp] theorem State.advance_fuse : (s.advance).fuse = s.fuse := rfl
@[simp] theorem State.advance_sched : (s.advance).sched = s.sched := rfl
@[simp] theorem State.advance_batchLeft : (s.advance).batchLeft = s.batchLeft := rfl
@[simp] theorem State.advance_timerPending : (s.advance).timerPending = s.timerPending := rfl
@[simp] theorem State.advance_cfg : (s.advance).cfg = s.cfg := rfl
@[simp] theorem State.advance_env : (s.advance).env = s.env := rfl
@[simp] theorem State.getV_advance (reg : Reg) : (s.advance).getV reg = s.getV reg := rfl
@[simp] theorem State.readByte_advance (addr : Nat) : (s.advance).readByte addr = s.readByte addr := rfl

end advanceFields

section skipIfFields
variable (s : State) (c : Bool)

@[simp] theorem State.skipIf_mem : (s.skipIf c).mem = s.mem := by cases c <;> rfl
@[simp] theorem State.skipIf_v : (s.skipIf c).v = s.v := by cases c <;> rfl
@[simp] theorem State.skipIf_i : (s.skipIf c).i = s.i := by cases c <;> rfl
@[simp] theorem State.skipIf_pc : (s.skipIf c).pc = (if c then s.nextPc + 2#16 else s.nextPc) := by cases c <;> rfl
@[simp] theorem State.skipIf_sp : (s.skipIf c).sp = s.sp := by cases c <;> rfl
@[simp] theorem State.skipIf_stack : (s.skipIf c).stack = s.stack := by cases c <;> rfl
@[simp] theorem State.skipIf_dt : (s.skipIf c).dt = s.dt := by cases c <;> rfl
@[simp] theorem State.skipIf_st : (s.skipIf c).st = s.st := by cases c <;> rfl
@[simp] theorem State.skipIf_wait : (s.skipIf c).wait = s.wait := by cases c <;> rfl
@[simp] theorem State.skipIf_run : (s.skipIf c).run = s.run := by cases c <;> rfl
@[simp] theorem State.skipIf_fault : (s.skipIf c).fault = s.fault := by cases c <;> rfl
@[simp] theorem State.skipIf_invalidSeen : (s.skipIf c).invalidSeen = s.invalidSeen := by cases c <;> rfl
@[simp] theorem State.skipIf_fb : (s.skipIf c).fb = s.fb := by cases c <;> rfl
@[simp] theorem State.skipIf_snap : (s.skipIf c).snap = s.snap := by cases c <;> rfl
@[simp] theorem State.skipIf_snapReq : (s.skipIf c).snapReq = s.snapReq := by cases c <;> rfl
@[simp] theorem State.skipIf_ku : (s.skipIf c).ku = s.ku := by cases c <;> rfl
@[simp] theorem State.skipIf_kp : (s.skipIf c).kp = s.kp := by cases c <;> rfl
@[simp] theorem State.skipIf_fuse : (s.skipIf c).fuse = s.fuse := by cases c <;> rfl
@[simp] theorem State.skipIf_sched : (s.skipIf c).sched = s.sched := by cases c <;> rfl
@[simp] theorem State.skipIf_batchLeft : (s.skipIf c).batchLeft = s.batchLeft := by cases c <;> rfl
@[simp] theorem State.skipIf_timerPending : (s.skipIf c).timerPending = s.timerPending := by cases c <;> rfl
@[simp] theorem State.skipIf_cfg : (s.skipIf c).cfg = s.cfg := by cases c <;> rfl
@[simp] theorem State.skipIf_env : (s.skipIf c).env = s.env := by cases c <;> rfl
@[simp] theorem State.getV_skipIf (reg : Reg) : (s.skipIf c).getV reg = s.getV reg := by simp only [State.getV, State.skipIf_v]
@[simp] theorem State.readByte_skipIf (addr : Nat) : (s.skipIf c).readByte addr = s.readByte addr := by simp only [State.readByte, State.skipIf_mem]

end skipIfFields

section pushFields
variable (s : State) (w : Word)

@[simp] theorem State.push_mem : (s.push w).mem = s.mem := rfl
@[simp] theorem State.push_v : (s.push w).v = s.v := rfl
@[simp] theorem State.push_i : (s.push w).i = s.i := rfl
@[simp] theorem State.push_pc : (s.push w).pc = s.pc := rfl
@[simp] theorem State.push_sp : (s.push w).sp = s.sp + 1 := rfl
@[simp] theorem State.push_stack : (s.push w).stack = s.stack.set s.sp w := rfl
@[simp] theorem State.push_dt : (s.push w).dt = s.dt := rfl
@[simp] theorem State.push_st : (s.push w).st = s.st := rfl
@[simp] theorem State.push_wait : (s.push w).wait = s.wait := rfl
@[simp] theorem State.push_run : (s.push w).run = s.run := rfl
@[simp] theorem State.push_fault : (s.push w).fault = s.fault := rfl
@[simp] theorem State.push_invalidSeen : (s.push w).invalidSeen = s.invalidSeen := rfl
@[simp] theorem State.push_fb : (s.push w).fb = s.fb := rfl
@[simp] theorem State.push_snap : (s.push w).snap = s.snap := rfl
@[simp] theorem State.push_snapReq : (s.push w).snapReq = s.snapReq := rfl
@[simp] theorem State.push_ku : (s.push w).ku = s.ku := rfl
@[simp] theorem State.push_kp : (s.push w).kp = s.kp := rfl
@[simp] theorem State.push_fuse : (s.push w).fuse = s.fuse := rfl
@[simp] theorem State.push_sched : (s.push w).sched = s.sched := rfl
@[simp] theorem State.push_batchLeft : (s.push w).batchLeft = s.batchLeft := rfl
@[simp] theorem State.push_timerPending : (s.push w).timerPending = s.timerPending := rfl
@[simp] theorem State.push_cfg : (s.push w).cfg = s.cfg := rfl
@[simp] theorem State.push_env : (s.push w).env = s.env := rfl
@[simp] theorem State.getV_push (reg : Reg) : (s.push w).getV reg = s.getV reg := rfl
@[simp] theorem State.readByte_push (addr : Nat) : (s.push w).readByte addr = s.readByte addr := rfl

end pushFields

section popFields
variable (s : State)

@[simp] theorem State.pop_mem : (s.pop).mem = s.mem := rfl
@[simp] theorem State.pop_v : (s.pop).v = s.v := rfl
@[simp] theorem State.pop_i : (s.pop).i = s.i := rfl
@[simp] theorem State.pop_pc : (s.pop).pc = s.pc := rfl
@[simp] theorem State.pop_sp : (s.pop).sp = s.sp - 1 := rfl
@[simp] theorem State.pop_stack : (s.pop).stack = s.stack := rfl
@[simp] theorem State.pop_dt : (s.pop).dt = s.dt := rfl
@[simp] theorem State.pop_st : (s.pop).st = s.st := rfl
@[simp] theorem State.pop_wait : (s.pop).wait = s.wait := rfl
@[simp] theorem State.pop_run : (s.pop).run = s.run := rfl
@[simp] theorem State.pop_fault : (s.pop).fault = s.fault := rfl
@[simp] theorem State.pop_invalidSeen : (s.pop).invalidSeen = s.invalidSeen := rfl
@[simp] theorem State.pop_fb : (s.pop).fb = s.fb := rfl
@[simp] theorem State.pop_snap : (s.pop).snap = s.snap := rfl
@[simp] theorem State.pop_snapReq : (s.pop).snapReq = s.snapReq := rfl
@[simp] theorem State.pop_ku : (s.pop).ku = s.ku := rfl
@[simp] theorem State.pop_kp : (s.pop).kp = s.kp := rfl
@[simp] theorem State.pop_fuse : (s.pop).fuse = s.fuse := rfl
@[simp] theorem State.pop_sched : (s.pop).sched = s.sched := rfl
@[simp] theorem State.pop_batchLeft : (s.pop).batchLeft = s.batchLeft := rfl
@[simp] theorem State.pop_timerPending : (s.pop).timerPending = s.timerPending := rfl
@[simp] theorem State.pop_cfg : (s.pop).cfg = s.cfg := rfl
@[simp] theorem State.pop_env : (s.pop).env = s.env := rfl
@[simp] theorem State.getV_pop (reg : Reg) : (s.pop).getV reg = s.getV reg := rfl
@[simp] theorem State.readByte_pop (addr : Nat) : (s.pop).readByte addr = s.readByte addr := rfl

end popFields

section takeFaultFields
variable (s : State) (f : Fault) (op : Word)

@[simp] theorem State.takeFault_mem : (s.takeFault f op).mem = s.mem := rfl
@[simp] theorem State.takeFault_v : (s.takeFault f op).v = s.v := rfl
@[simp] theorem State.takeFault_i : (s.takeFault f op).i = s.i := rfl
@[simp] theorem State.takeFault_pc : (s.takeFault f op).pc = s.pc := rfl
@[simp] theorem State.takeFault_sp : (s.takeFault f op).sp = s.sp := rfl
@[simp] theorem State.takeFault_stack : (s.takeFault f op).stack = s.stack := rfl
@[simp] theorem State.takeFault_dt : (s.takeFault f op).dt = s.dt := rfl
@[simp] theorem State.takeFault_st : (s.takeFault f op).st = s.st := rfl
@[simp] theorem State.takeFault_wait : (s.takeFault f op).wait = s.wait := rfl
@[simp] theorem State.takeFault_run : (s.takeFault f op).run = .halted := rfl
@[simp] theorem State.takeFault_fault : (s.takeFault f op).fault = ⟨f.code, s.pc, op, f.recordedAddr⟩ := rfl
@[simp] theorem State.takeFault_invalidSeen : (s.takeFault f op).invalidSeen = s.invalidSeen := rfl
@[simp] theorem State.takeFault_fb : (s.takeFault f op).fb = s.fb := rfl
@[simp] theorem State.takeFault_snap : (s.takeFault f op).snap = s.snap := rfl
@[simp] theorem State.takeFault_snapReq : (s.takeFault f op).snapReq = s.snapReq := rfl
@[simp] theorem State.takeFault_ku : (s.takeFault f op).ku = s.ku := rfl
@[simp] theorem State.takeFault_kp : (s.takeFault f op).kp = s.kp := rfl
@[simp] theorem State.takeFault_fuse : (s.takeFault f op).fuse = s.fuse := rfl
@[simp] theorem State.takeFault_sched : (s.takeFault f op).sched = s.sched := rfl
@[simp] theorem State.takeFault_batchLeft : (s.takeFault f op).batchLeft = s.batchLeft := rfl
@[simp] theorem State.takeFault_timerPending : (s.takeFault f op).timerPending = s.timerPending := rfl
@[simp] theorem State.takeFault_cfg : (s.takeFault f op).cfg = s.cfg := rfl
@[simp] theorem State.takeFault_env : (s.takeFault f op).env = s.env := rfl
@[simp] theorem State.getV_takeFault (reg : Reg) : (s.takeFault f op).getV reg = s.getV reg := rfl
@[simp] theorem State.readByte_takeFault (addr : Nat) : (s.takeFault f op).readByte addr = s.readByte addr := rfl

end takeFaultFields

section afterDrawFields
variable (s : State)

@[simp] theorem State.afterDraw_mem : (s.afterDraw).mem = s.mem := by unfold State.afterDraw; split <;> rfl
@[simp] theorem State.afterDraw_v : (s.afterDraw).v = s.v := by unfold State.afterDraw; split <;> rfl
@[simp] theorem State.afterDraw_i : (s.afterDraw).i = s.i := by unfold State.afterDraw; split <;> rfl
@[simp] theorem State.afterDraw_pc : (s.afterDraw).pc = s.pc := by unfold State.afterDraw; split <;> rfl
@[simp] theorem State.afterDraw_sp : (s.afterDraw).sp = s.sp := by unfold State.afterDraw; split <;> rfl
@[simp] theorem State.afterDraw_stack : (s.afterDraw).stack = s.stack := by unfold State.afterDraw; split <;> rfl
@[simp] theorem State.afterDraw_dt : (s.afterDraw).dt = s.dt := by unfold State.afterDraw; split <;> rfl
@[simp] theorem State.afterDraw_st : (s.afterDraw).st = s.st := by unfold State.afterDraw; split <;> rfl
@[simp] theorem State.afterDraw_wait : (s.afterDraw).wait = s.wait := by unfold State.afterDraw; split <;> rfl
@[simp] theorem State.afterDraw_run : (s.afterDraw).run = s.run := by unfold State.afterDraw; split <;> rfl
@[simp] theorem State.afterDraw_fault : (s.afterDraw).fault = s.fault := by unfold State.afterDraw; split <;> rfl
@[simp] theorem State.afterDraw_invalidSeen : (s.afterDraw).invalidSeen = s.invalidSeen := by unfold State.afterDraw; split <;> rfl
@[simp] theorem State.afterDraw_fb : (s.afterDraw).fb = s.fb := by unfold State.afterDraw; split <;> rfl
@[simp] theorem State.afterDraw_snap : (s.afterDraw).snap = s.snap := by unfold State.afterDraw; split <;> rfl
@[simp] theorem State.afterDraw_snapReq : (s.afterDraw).snapReq = s.snapReq := by unfold State.afterDraw; split <;> rfl
@[simp] theorem State.afterDraw_ku : (s.afterDraw).ku = s.ku := by unfold State.afterDraw; split <;> rfl
@[simp] theorem State.afterDraw_kp : (s.afterDraw).kp = s.kp := by unfold State.afterDraw; split <;> rfl
@[simp] theorem State.afterDraw_fuse : (s.afterDraw).fuse = s.fuse := by unfold State.afterDraw; split <;> rfl
@[simp] theorem State.afterDraw_sched : (s.afterDraw).sched = s.sched := by unfold State.afterDraw; split <;> rfl
@[simp] theorem State.afterDraw_batchLeft : (s.afterDraw).batchLeft = s.batchLeft := by unfold State.afterDraw; split <;> rfl
@[simp] theorem State.afterDraw_timerPending : (s.afterDraw).timerPending = s.timerPending := by unfold State.afterDraw; split <;> rfl
@[simp] theorem State.afterDraw_cfg : (s.afterDraw).cfg = s.cfg := by unfold State.afterDraw; split <;> rfl
@[simp] theorem State.getV_afterDraw (reg : Reg) : (s.afterDraw).getV reg = s.getV reg := by simp only [State.getV, State.afterDraw_v]
@[simp] theorem State.readByte_afterDraw (addr : Nat) : (s.afterDraw).readByte addr = s.readByte addr := by simp only [State.readByte, State.afterDraw_mem]

end afterDrawFields

section setVFlagFields
variable (s : State) (x : Reg) (b : Byte) (c : Bool)

@[simp] theorem State.setVFlag_mem : (s.setVFlag x b c).mem = s.mem := rfl
@[simp] theorem State.setVFlag_i : (s.setVFlag x b c).i = s.i := rfl
@[simp] theorem State.setVFlag_pc : (s.setVFlag x b c).pc = s.pc := rfl
@[simp] theorem State.setVFlag_sp : (s.setVFlag x b c).sp = s.sp := rfl
@[simp] theorem State.setVFlag_stack : (s.setVFlag x b c).stack = s.stack := rfl
@[simp] theorem State.setVFlag_dt : (s.setVFlag x b c).dt = s.dt := rfl
@[simp] theorem State.setVFlag_st : (s.setVFlag x b c).st = s.st := rfl
@[simp] theorem State.setVFlag_wait : (s.setVFlag x b c).wait = s.wait := rfl
@[simp] theorem State.setVFlag_run : (s.setVFlag x b c).run = s.run := rfl
@[simp] theorem State.setVFlag_fault : (s.setVFlag x b c).fault = s.fault := rfl
@[simp] theorem State.setVFlag_invalidSeen : (s.setVFlag x b c).invalidSeen = s.invalidSeen := rfl
@[simp] theorem State.setVFlag_fb : (s.setVFlag x b c).fb = s.fb := rfl
@[simp] theorem State.setVFlag_snap : (s.setVFlag x b c).snap = s.snap := rfl
@[simp] theorem State.setVFlag_snapReq : (s.setVFlag x b c).snapReq = s.snapReq := rfl
@[simp] theorem State.setVFlag_ku : (s.setVFlag x b c).ku = s.ku := rfl
@[simp] theorem State.setVFlag_kp : (s.setVFlag x b c).kp = s.kp := rfl
@[simp] theorem State.setVFlag_fuse : (s.setVFlag x b c).fuse = s.fuse := rfl
@[simp] theorem State.setVFlag_sched : (s.setVFlag x b c).sched = s.sched := rfl
@[simp] theorem State.setVFlag_batchLeft : (s.setVFlag x b c).batchLeft = s.batchLeft := rfl
@[simp] theorem State.setVFlag_timerPending : (s.setVFlag x b c).timerPending = s.timerPending := rfl
@[simp] theorem State.setVFlag_cfg : (s.setVFlag x b c).cfg = s.cfg := rfl
@[simp] theorem State.setVFlag_env : (s.setVFlag x b c).env = s.env := rfl
@[simp] theorem State.readByte_setVFlag (addr : Nat) : (s.setVFlag x b c).readByte addr = s.readByte addr := rfl

end setVFlagFields

section setVLogicFields
variable (s : State) (x : Reg) (b : Byte)

@[simp] theorem State.setVLogic_mem : (s.setVLogic x b).mem = s.mem := by unfold State.setVLogic; split <;> rfl
@[simp] theorem State.setVLogic_i : (s.setVLogic x b).i = s.i := by unfold State.setVLogic; split <;> rfl
@[simp] theorem State.setVLogic_pc : (s.setVLogic x b).pc = s.pc := by unfold State.setVLogic; split <;> rfl
@[simp] theorem State.setVLogic_sp : (s.setVLogic x b).sp = s.sp := by unfold State.setVLogic; split <;> rfl
@[simp] theorem State.setVLogic_stack : (s.setVLogic x b).stack = s.stack := by unfold State.setVLogic; split <;> rfl
@[simp] theorem State.setVLogic_dt : (s.setVLogic x b).dt = s.dt := by unfold State.setVLogic; split <;> rfl
@[simp] theorem State.setVLogic_st : (s.setVLogic x b).st = s.st := by unfold State.setVLogic; split <;> rfl
@[simp] theorem State.setVLogic_wait : (s.setVLogic x b).wait = s.wait := by unfold State.setVLogic; split <;> rfl
@[simp] theorem State.setVLogic_run : (s.setVLogic x b).run = s.run := by unfold State.setVLogic; split <;> rfl
@[simp] theorem State.setVLogic_fault : (s.setVLogic x b).fault = s.fault := by unfold State.setVLogic; split <;> rfl
@[simp] theorem State.setVLogic_invalidSeen : (s.setVLogic x b).invalidSeen = s.invalidSeen := by unfold State.setVLogic; split <;> rfl
@[simp] theorem State.setVLogic_fb : (s.setVLogic x b).fb = s.fb := by unfold State.setVLogic; split <;> rfl
@[simp] theorem State.setVLogic_snap : (s.setVLogic x b).snap = s.snap := by unfold State.setVLogic; split <;> rfl
@[simp] theorem State.setVLogic_snapReq : (s.setVLogic x b).snapReq = s.snapReq := by unfold State.setVLogic; split <;> rfl
@[simp] theorem State.setVLogic_ku : (s.setVLogic x b).ku = s.ku := by unfold State.setVLogic; split <;> rfl
@[simp] theorem State.setVLogic_kp : (s.setVLogic x b).kp = s.kp := by unfold State.setVLogic; split <;> rfl
@[simp] theorem State.setVLogic_fuse : (s.setVLogic x b).fuse = s.fuse := by unfold State.setVLogic; split <;> rfl
@[simp] theorem State.setVLogic_sched : (s.setVLogic x b).sched = s.sched := by unfold State.setVLogic; split <;> rfl
@[simp] theorem State.setVLogic_batchLeft : (s.setVLogic x b).batchLeft = s.batchLeft := by unfold State.setVLogic; split <;> rfl
@[simp] theorem State.setVLogic_timerPending : (s.setVLogic x b).timerPending = s.timerPending := by unfold State.setVLogic; split <;> rfl
@[simp] theorem State.setVLogic_cfg : (s.setVLogic x b).cfg = s.cfg := by unfold State.setVLogic; split <;> rfl
@[simp] theorem State.setVLogic_env : (s.setVLogic x b).env = s.env := by unfold State.setVLogic; split <;> rfl
@[simp] theorem State.readByte_setVLogic (addr : Nat) : (s.setVLogic x b).readByte addr = s.readByte addr := by simp only [State.readByte, State.setVLogic_mem]

end setVLogicFields

section setIndexFlagFields
variable (s : State) (n : Nat)

@[simp] theorem State.setIndexFlag_mem : (s.setIndexFlag n).mem = s.mem := by unfold State.setIndexFlag; split <;> rfl
@[simp] theorem State.setIndexFlag_i : (s.setIndexFlag n).i = s.i := by unfold State.setIndexFlag; split <;> rfl
@[simp] theorem State.setIndexFlag_pc : (s.setIndexFlag n).pc = s.pc := by unfold State.setIndexFlag; split <;> rfl
@[simp] theorem State.setIndexFlag_sp : (s.setIndexFlag n).sp = s.sp := by unfold State.setIndexFlag; split <;> rfl
@[simp] theorem State.setIndexFlag_stack : (s.setIndexFlag n).stack = s.stack := by unfold State.setIndexFlag; split <;> rfl
@[simp] theorem State.setIndexFlag_dt : (s.setIndexFlag n).dt = s.dt := by unfold State.setIndexFlag; split <;> rfl
@[simp] theorem State.setIndexFlag_st : (s.setIndexFlag n).st = s.st := by unfold State.setIndexFlag; split <;> rfl
@[simp] theorem State.setIndexFlag_wait : (s.setIndexFlag n).wait = s.wait := by unfold State.setIndexFlag; split <;> rfl
@[simp] theorem State.setIndexFlag_run : (s.setIndexFlag n).run = s.run := by unfold State.setIndexFlag; split <;> rfl
@[simp] theorem State.setIndexFlag_fault : (s.setIndexFlag n).fault = s.fault := by unfold State.setIndexFlag; split <;> rfl
@[simp] theorem State.setIndexFlag_invalidSeen : (s.setIndexFlag n).invalidSeen = s.invalidSeen := by unfold State.setIndexFlag; split <;> rfl
@[simp] theorem State.setIndexFlag_fb : (s.setIndexFlag n).fb = s.fb := by unfold State.setIndexFlag; split <;> rfl
@[simp] theorem State.setIndexFlag_snap : (s.setIndexFlag n).snap = s.snap := by unfold State.setIndexFlag; split <;> rfl
@[simp] theorem State.setIndexFlag_snapReq : (s.setIndexFlag n).snapReq = s.snapReq := by unfold State.setIndexFlag; split <;> rfl
@[simp] theorem State.setIndexFlag_ku : (s.setIndexFlag n).ku = s.ku := by unfold State.setIndexFlag; split <;> rfl
@[simp] theorem State.setIndexFlag_kp : (s.setIndexFlag n).kp = s.kp := by unfold State.setIndexFlag; split <;> rfl
@[simp] theorem State.setIndexFlag_fuse : (s.setIndexFlag n).fuse = s.fuse := by unfold State.setIndexFlag; split <;> rfl
@[simp] theorem State.setIndexFlag_sched : (s.setIndexFlag n).sched = s.sched := by unfold State.setIndexFlag; split <;> rfl
@[simp] theorem State.setIndexFlag_batchLeft : (s.setIndexFlag n).batchLeft = s.batchLeft := by unfold State.setIndexFlag; split <;> rfl
@[simp] theorem State.setIndexFlag_timerPending : (s.setIndexFlag n).timerPending = s.timerPending := by unfold State.setIndexFlag; split <;> rfl
@[simp] theorem State.setIndexFlag_cfg : (s.setIndexFlag n).cfg = s.cfg := by unfold State.setIndexFlag; split <;> rfl
@[simp] theorem State.setIndexFlag_env : (s.setIndexFlag n).env = s.env := by unfold State.setIndexFlag; split <;> rfl
@[simp] theorem State.readByte_setIndexFlag (addr : Nat) : (s.setIndexFlag n).readByte addr = s.readByte addr := by simp only [State.readByte, State.setIndexFlag_mem]

end setIndexFlagFields

section setFbFields
variable (s : State) (f : Frame)

@[simp] theorem State.setFb_mem : (s.setFb f).mem = s.mem := rfl
@[simp] theorem State.setFb_v : (s.setFb f).v = s.v := rfl
@[simp] theorem State.setFb_i : (s.setFb f).i = s.i := rfl
@[simp] theorem State.setFb_pc : (s.setFb f).pc = s.pc := rfl
@[simp] theorem State.setFb_sp : (s.setFb f).sp = s.sp := rfl
@[simp] theorem State.setFb_stack : (s.setFb f).stack = s.stack := rfl
@[simp] theorem State.setFb_dt : (s.setFb f).dt = s.dt := rfl
@[simp] theorem State.setFb_st : (s.setFb f).st = s.st := rfl
@[simp] theorem State.setFb_wait : (s.setFb f).wait = s.wait := rfl
@[simp] theorem State.setFb_run : (s.setFb f).run = s.run := rfl
@[simp] theorem State.setFb_fault : (s.setFb f).fault = s.fault := rfl
@[simp] theorem State.setFb_invalidSeen : (s.setFb f).invalidSeen = s.invalidSeen := rfl
@[simp] theorem State.setFb_fb : (s.setFb f).fb = f := rfl
@[simp] theorem State.setFb_snap : (s.setFb f).snap = s.snap := rfl
@[simp] theorem State.setFb_snapReq : (s.setFb f).snapReq = s.snapReq := rfl
@[simp] theorem State.setFb_ku : (s.setFb f).ku = s.ku := rfl
@[simp] theorem State.setFb_kp : (s.setFb f).kp = s.kp := rfl
@[simp] theorem State.setFb_fuse : (s.setFb f).fuse = s.fuse := rfl
@[simp] theorem State.setFb_sched : (s.setFb f).sched = s.sched := rfl
@[simp] theorem State.setFb_batchLeft : (s.setFb f).batchLeft = s.batchLeft := rfl
@[simp] theorem State.setFb_timerPending : (s.setFb f).timerPending = s.timerPending := rfl
@[simp] theorem State.setFb_cfg : (s.setFb f).cfg = s.cfg := rfl
@[simp] theorem State.setFb_env : (s.setFb f).env = s.env := rfl
@[simp] theorem State.getV_setFb (reg : Reg) : (s.setFb f).getV reg = s.getV reg := rfl
@[simp] theorem State.readByte_setFb (addr : Nat) : (s.setFb f).readByte addr = s.readByte addr := rfl

end setFbFields

section enterWaitFields
variable (s : State) (x : Reg)

@[simp] theorem State.enterWait_mem : (s.enterWait x).mem = s.mem := rfl
@[simp] theorem State.enterWait_v : (s.enterWait x).v = s.v := rfl
@[simp] theorem State.enterWait_i : (s.enterWait x).i = s.i := rfl
@[simp] theorem State.enterWait_pc : (s.enterWait x).pc = s.pc := rfl
@[simp] theorem State.enterWait_sp : (s.enterWait x).sp = s.sp := rfl
@[simp] theorem State.enterWait_stack : (s.enterWait x).stack = s.stack := rfl
@[simp] theorem State.enterWait_dt : (s.enterWait x).dt = s.dt := rfl
@[simp] theorem State.enterWait_st : (s.enterWait x).st = s.st := rfl
@[simp] theorem State.enterWait_wait : (s.enterWait x).wait = ⟨true, x, s.kp⟩ := rfl
@[simp] theorem State.enterWait_run : (s.enterWait x).run = s.run := rfl
@[simp] theorem State.enterWait_fault : (s.enterWait x).fault = s.fault := rfl
@[simp] theorem State.enterWait_invalidSeen : (s.enterWait x).invalidSeen = s.invalidSeen := rfl
@[simp] theorem State.enterWait_fb : (s.enterWait x).fb = s.fb := rfl
@[simp] theorem State.enterWait_snap : (s.enterWait x).snap = s.snap := rfl
@[simp] theorem State.enterWait_snapReq : (s.enterWait x).snapReq = s.snapReq := rfl
@[simp] theorem State.enterWait_ku : (s.enterWait x).ku = s.ku := rfl
@[simp] theorem State.enterWait_kp : (s.enterWait x).kp = s.kp := rfl
@[simp] theorem State.enterWait_fuse : (s.enterWait x).fuse = s.fuse := rfl
@[simp] theorem State.enterWait_sched : (s.enterWait x).sched = s.sched := rfl
@[simp] theorem State.enterWait_batchLeft : (s.enterWait x).batchLeft = s.batchLeft := rfl
@[simp] theorem State.enterWait_timerPending : (s.enterWait x).timerPending = s.timerPending := rfl
@[simp] theorem State.enterWait_cfg : (s.enterWait x).cfg = s.cfg := rfl
@[simp] theorem State.enterWait_env : (s.enterWait x).env = s.env := rfl
@[simp] theorem State.getV_enterWait (reg : Reg) : (s.enterWait x).getV reg = s.getV reg := rfl
@[simp] theorem State.readByte_enterWait (addr : Nat) : (s.enterWait x).readByte addr = s.readByte addr := rfl

end enterWaitFields

section keepWaitingFields
variable (s : State)

@[simp] theorem State.keepWaiting_mem : (s.keepWaiting).mem = s.mem := by unfold State.keepWaiting; split <;> rfl
@[simp] theorem State.keepWaiting_v : (s.keepWaiting).v = s.v := by unfold State.keepWaiting; split <;> rfl
@[simp] theorem State.keepWaiting_i : (s.keepWaiting).i = s.i := by unfold State.keepWaiting; split <;> rfl
@[simp] theorem State.keepWaiting_pc : (s.keepWaiting).pc = s.pc := by unfold State.keepWaiting; split <;> rfl
@[simp] theorem State.keepWaiting_sp : (s.keepWaiting).sp = s.sp := by unfold State.keepWaiting; split <;> rfl
@[simp] theorem State.keepWaiting_stack : (s.keepWaiting).stack = s.stack := by unfold State.keepWaiting; split <;> rfl
@[simp] theorem State.keepWaiting_dt : (s.keepWaiting).dt = s.dt := by unfold State.keepWaiting; split <;> rfl
@[simp] theorem State.keepWaiting_st : (s.keepWaiting).st = s.st := by unfold State.keepWaiting; split <;> rfl
@[simp] theorem State.keepWaiting_run : (s.keepWaiting).run = s.run := by unfold State.keepWaiting; split <;> rfl
@[simp] theorem State.keepWaiting_fault : (s.keepWaiting).fault = s.fault := by unfold State.keepWaiting; split <;> rfl
@[simp] theorem State.keepWaiting_invalidSeen : (s.keepWaiting).invalidSeen = s.invalidSeen := by unfold State.keepWaiting; split <;> rfl
@[simp] theorem State.keepWaiting_fb : (s.keepWaiting).fb = s.fb := by unfold State.keepWaiting; split <;> rfl
@[simp] theorem State.keepWaiting_snap : (s.keepWaiting).snap = s.snap := by unfold State.keepWaiting; split <;> rfl
@[simp] theorem State.keepWaiting_snapReq : (s.keepWaiting).snapReq = s.snapReq := by unfold State.keepWaiting; split <;> rfl
@[simp] theorem State.keepWaiting_ku : (s.keepWaiting).ku = s.ku := by unfold State.keepWaiting; split <;> rfl
@[simp] theorem State.keepWaiting_kp : (s.keepWaiting).kp = s.kp := by unfold State.keepWaiting; split <;> rfl
@[simp] theorem State.keepWaiting_fuse : (s.keepWaiting).fuse = s.fuse := by unfold State.keepWaiting; split <;> rfl
@[simp] theorem State.keepWaiting_sched : (s.keepWaiting).sched = s.sched := by unfold State.keepWaiting; split <;> rfl
@[simp] theorem State.keepWaiting_batchLeft : (s.keepWaiting).batchLeft = s.batchLeft := by unfold State.keepWaiting; split <;> rfl
@[simp] theorem State.keepWaiting_timerPending : (s.keepWaiting).timerPending = s.timerPending := by unfold State.keepWaiting; split <;> rfl
@[simp] theorem State.keepWaiting_cfg : (s.keepWaiting).cfg = s.cfg := by unfold State.keepWaiting; split <;> rfl
@[simp] theorem State.keepWaiting_env : (s.keepWaiting).env = s.env := by unfold State.keepWaiting; split <;> rfl
@[simp] theorem State.getV_keepWaiting (reg : Reg) : (s.keepWaiting).getV reg = s.getV reg := by simp only [State.getV, State.keepWaiting_v]
@[simp] theorem State.readByte_keepWaiting (addr : Nat) : (s.keepWaiting).readByte addr = s.readByte addr := by simp only [State.readByte, State.keepWaiting_mem]

end keepWaitingFields

section completeWaitFields
variable (s : State) (k : Nat)

@[simp] theorem State.completeWait_mem : (s.completeWait k).mem = s.mem := rfl
@[simp] theorem State.completeWait_i : (s.completeWait k).i = s.i := rfl
@[simp] theorem State.completeWait_pc : (s.completeWait k).pc = s.pc := rfl
@[simp] theorem State.completeWait_sp : (s.completeWait k).sp = s.sp := rfl
@[simp] theorem State.completeWait_stack : (s.completeWait k).stack = s.stack := rfl
@[simp] theorem State.completeWait_dt : (s.completeWait k).dt = s.dt := rfl
@[simp] theorem State.completeWait_st : (s.completeWait k).st = s.st := rfl
@[simp] theorem State.completeWait_wait : (s.completeWait k).wait = { s.wait with active := false } := rfl
@[simp] theorem State.completeWait_run : (s.completeWait k).run = s.run := rfl
@[simp] theorem State.completeWait_fault : (s.completeWait k).fault = s.fault := rfl
@[simp] theorem State.completeWait_invalidSeen : (s.completeWait k).invalidSeen = s.invalidSeen := rfl
@[simp] theorem State.completeWait_fb : (s.completeWait k).fb = s.fb := rfl
@[simp] theorem State.completeWait_snap : (s.completeWait k).snap = s.snap := rfl
@[simp] theorem State.completeWait_snapReq : (s.completeWait k).snapReq = s.snapReq := rfl
@[simp] theorem State.completeWait_ku : (s.completeWait k).ku = s.ku := rfl
@[simp] theorem State.completeWait_kp : (s.completeWait k).kp = s.kp := rfl
@[simp] theorem State.completeWait_fuse : (s.completeWait k).fuse = s.fuse := rfl
@[simp] theorem State.completeWait_sched : (s.completeWait k).sched = s.sched := rfl
@[simp] theorem State.completeWait_batchLeft : (s.completeWait k).batchLeft = s.batchLeft := rfl
@[simp] theorem State.completeWait_timerPending : (s.completeWait k).timerPending = s.timerPending := rfl
@[simp] theorem State.completeWait_cfg : (s.completeWait k).cfg = s.cfg := rfl
@[simp] theorem State.completeWait_env : (s.completeWait k).env = s.env := rfl
@[simp] theorem State.readByte_completeWait (addr : Nat) : (s.completeWait k).readByte addr = s.readByte addr := rfl

end completeWaitFields

section setDtFields
variable (s : State) (b : Byte)

@[simp] theorem State.setDt_mem : (s.setDt b).mem = s.mem := rfl
@[simp] theorem State.setDt_v : (s.setDt b).v = s.v := rfl
@[simp] theorem State.setDt_i : (s.setDt b).i = s.i := rfl
@[simp] theorem State.setDt_pc : (s.setDt b).pc = s.pc := rfl
@[simp] theorem State.setDt_sp : (s.setDt b).sp = s.sp := rfl
@[simp] theorem State.setDt_stack : (s.setDt b).stack = s.stack := rfl
@[simp] theorem State.setDt_dt : (s.setDt b).dt = b := rfl
@[simp] theorem State.setDt_st : (s.setDt b).st = s.st := rfl
@[simp] theorem State.setDt_wait : (s.setDt b).wait = s.wait := rfl
@[simp] theorem State.setDt_run : (s.setDt b).run = s.run := rfl
@[simp] theorem State.setDt_fault : (s.setDt b).fault = s.fault := rfl
@[simp] theorem State.setDt_invalidSeen : (s.setDt b).invalidSeen = s.invalidSeen := rfl
@[simp] theorem State.setDt_fb : (s.setDt b).fb = s.fb := rfl
@[simp] theorem State.setDt_snap : (s.setDt b).snap = s.snap := rfl
@[simp] theorem State.setDt_snapReq : (s.setDt b).snapReq = s.snapReq := rfl
@[simp] theorem State.setDt_ku : (s.setDt b).ku = s.ku := rfl
@[simp] theorem State.setDt_kp : (s.setDt b).kp = s.kp := rfl
@[simp] theorem State.setDt_fuse : (s.setDt b).fuse = s.fuse := rfl
@[simp] theorem State.setDt_sched : (s.setDt b).sched = s.sched := rfl
@[simp] theorem State.setDt_batchLeft : (s.setDt b).batchLeft = s.batchLeft := rfl
@[simp] theorem State.setDt_timerPending : (s.setDt b).timerPending = s.timerPending := rfl
@[simp] theorem State.setDt_cfg : (s.setDt b).cfg = s.cfg := rfl
@[simp] theorem State.setDt_env : (s.setDt b).env = s.env := rfl
@[simp] theorem State.getV_setDt (reg : Reg) : (s.setDt b).getV reg = s.getV reg := rfl
@[simp] theorem State.readByte_setDt (addr : Nat) : (s.setDt b).readByte addr = s.readByte addr := rfl

end setDtFields

section setStFields
variable (s : State) (b : Byte)

@[simp] theorem State.setSt_mem : (s.setSt b).mem = s.mem := rfl
@[simp] theorem State.setSt_v : (s.setSt b).v = s.v := rfl
@[simp] theorem State.setSt_i : (s.setSt b).i = s.i := rfl
@[simp] theorem State.setSt_pc : (s.setSt b).pc = s.pc := rfl
@[simp] theorem State.setSt_sp : (s.setSt b).sp = s.sp := rfl
@[simp] theorem State.setSt_stack : (s.setSt b).stack = s.stack := rfl
@[simp] theorem State.setSt_dt : (s.setSt b).dt = s.dt := rfl
@[simp] theorem State.setSt_st : (s.setSt b).st = b := rfl
@[simp] theorem State.setSt_wait : (s.setSt b).wait = s.wait := rfl
@[simp] theorem State.setSt_run : (s.setSt b).run = s.run := rfl
@[simp] theorem State.setSt_fault : (s.setSt b).fault = s.fault := rfl
@[simp] theorem State.setSt_invalidSeen : (s.setSt b).invalidSeen = s.invalidSeen := rfl
@[simp] theorem State.setSt_fb : (s.setSt b).fb = s.fb := rfl
@[simp] theorem State.setSt_snap : (s.setSt b).snap = s.snap := rfl
@[simp] theorem State.setSt_snapReq : (s.setSt b).snapReq = s.snapReq := rfl
@[simp] theorem State.setSt_ku : (s.setSt b).ku = s.ku := rfl
@[simp] theorem State.setSt_kp : (s.setSt b).kp = s.kp := rfl
@[simp] theorem State.setSt_fuse : (s.setSt b).fuse = s.fuse := rfl
@[simp] theorem State.setSt_sched : (s.setSt b).sched = s.sched := rfl
@[simp] theorem State.setSt_batchLeft : (s.setSt b).batchLeft = s.batchLeft := rfl
@[simp] theorem State.setSt_timerPending : (s.setSt b).timerPending = s.timerPending := rfl
@[simp] theorem State.setSt_cfg : (s.setSt b).cfg = s.cfg := rfl
@[simp] theorem State.setSt_env : (s.setSt b).env = s.env := rfl
@[simp] theorem State.getV_setSt (reg : Reg) : (s.setSt b).getV reg = s.getV reg := rfl
@[simp] theorem State.readByte_setSt (addr : Nat) : (s.setSt b).readByte addr = s.readByte addr := rfl

end setStFields

section loadedBlockFields
variable (s : State) (base n : Nat)

@[simp] theorem State.loadedBlock_mem : (s.loadedBlock base n).mem = s.mem := by induction n with
  | zero => rfl
  | succ n ih => exact ih
@[simp] theorem State.loadedBlock_i : (s.loadedBlock base n).i = s.i := by induction n with
  | zero => rfl
  | succ n ih => exact ih
@[simp] theorem State.loadedBlock_pc : (s.loadedBlock base n).pc = s.pc := by induction n with
  | zero => rfl
  | succ n ih => exact ih
@[simp] theorem State.loadedBlock_sp : (s.loadedBlock base n).sp = s.sp := by induction n with
  | zero => rfl
  | succ n ih => exact ih
@[simp] theorem State.loadedBlock_stack : (s.loadedBlock base n).stack = s.stack := by induction n with
  | zero => rfl
  | succ n ih => exact ih
@[simp] theorem State.loadedBlock_dt : (s.loadedBlock base n).dt = s.dt := by induction n with
  | zero => rfl
  | succ n ih => exact ih
@[simp] theorem State.loadedBlock_st : (s.loadedBlock base n).st = s.st := by induction n with
  | zero => rfl
  | succ n ih => exact ih
@[simp] theorem State.loadedBlock_wait : (s.loadedBlock base n).wait = s.wait := by induction n with
  | zero => rfl
  | succ n ih => exact ih
@[simp] theorem State.loadedBlock_run : (s.loadedBlock base n).run = s.run := by induction n with
  | zero => rfl
  | succ n ih => exact ih
@[simp] theorem State.loadedBlock_fault : (s.loadedBlock base n).fault = s.fault := by induction n with
  | zero => rfl
  | succ n ih => exact ih
@[simp] theorem State.loadedBlock_invalidSeen : (s.loadedBlock base n).invalidSeen = s.invalidSeen := by induction n with
  | zero => rfl
  | succ n ih => exact ih
@[simp] theorem State.loadedBlock_fb : (s.loadedBlock base n).fb = s.fb := by induction n with
  | zero => rfl
  | succ n ih => exact ih
@[simp] theorem State.loadedBlock_snap : (s.loadedBlock base n).snap = s.snap := by induction n with
  | zero => rfl
  | succ n ih => exact ih
@[simp] theorem State.loadedBlock_snapReq : (s.loadedBlock base n).snapReq = s.snapReq := by induction n with
  | zero => rfl
  | succ n ih => exact ih
@[simp] theorem State.loadedBlock_ku : (s.loadedBlock base n).ku = s.ku := by induction n with
  | zero => rfl
  | succ n ih => exact ih
@[simp] theorem State.loadedBlock_kp : (s.loadedBlock base n).kp = s.kp := by induction n with
  | zero => rfl
  | succ n ih => exact ih
@[simp] theorem State.loadedBlock_fuse : (s.loadedBlock base n).fuse = s.fuse := by induction n with
  | zero => rfl
  | succ n ih => exact ih
@[simp] theorem State.loadedBlock_sched : (s.loadedBlock base n).sched = s.sched := by induction n with
  | zero => rfl
  | succ n ih => exact ih
@[simp] theorem State.loadedBlock_batchLeft : (s.loadedBlock base n).batchLeft = s.batchLeft := by induction n with
  | zero => rfl
  | succ n ih => exact ih
@[simp] theorem State.loadedBlock_timerPending : (s.loadedBlock base n).timerPending = s.timerPending := by induction n with
  | zero => rfl
  | succ n ih => exact ih
@[simp] theorem State.loadedBlock_cfg : (s.loadedBlock base n).cfg = s.cfg := by induction n with
  | zero => rfl
  | succ n ih => exact ih
@[simp] theorem State.loadedBlock_env : (s.loadedBlock base n).env = s.env := by induction n with
  | zero => rfl
  | succ n ih => exact ih
@[simp] theorem State.readByte_loadedBlock (addr : Nat) : (s.loadedBlock base n).readByte addr = s.readByte addr := by simp only [State.readByte, State.loadedBlock_mem]

end loadedBlockFields

section tripFields
variable (s : State)

@[simp] theorem State.trip_mem : (s.trip).mem = s.mem := rfl
@[simp] theorem State.trip_v : (s.trip).v = s.v := rfl
@[simp] theorem State.trip_i : (s.trip).i = s.i := rfl
@[simp] theorem State.trip_pc : (s.trip).pc = s.pc := rfl
@[simp] theorem State.trip_sp : (s.trip).sp = s.sp := rfl
@[simp] theorem State.trip_stack : (s.trip).stack = s.stack := rfl
@[simp] theorem State.trip_dt : (s.trip).dt = s.dt := rfl
@[simp] theorem State.trip_st : (s.trip).st = s.st := rfl
@[simp] theorem State.trip_wait : (s.trip).wait = s.wait := rfl
@[simp] theorem State.trip_run : (s.trip).run = s.run := rfl
@[simp] theorem State.trip_fault : (s.trip).fault = s.fault := rfl
@[simp] theorem State.trip_invalidSeen : (s.trip).invalidSeen = s.invalidSeen := rfl
@[simp] theorem State.trip_fb : (s.trip).fb = s.fb := rfl
@[simp] theorem State.trip_snap : (s.trip).snap = s.snap := rfl
@[simp] theorem State.trip_snapReq : (s.trip).snapReq = s.snapReq := rfl
@[simp] theorem State.trip_ku : (s.trip).ku = s.ku := rfl
@[simp] theorem State.trip_kp : (s.trip).kp = s.kp := rfl
@[simp] theorem State.trip_fuse : (s.trip).fuse = true := rfl
@[simp] theorem State.trip_sched : (s.trip).sched = s.sched := rfl
@[simp] theorem State.trip_batchLeft : (s.trip).batchLeft = s.batchLeft := rfl
@[simp] theorem State.trip_timerPending : (s.trip).timerPending = s.timerPending := rfl
@[simp] theorem State.trip_cfg : (s.trip).cfg = s.cfg := rfl
@[simp] theorem State.trip_env : (s.trip).env = s.env := rfl
@[simp] theorem State.getV_trip (reg : Reg) : (s.trip).getV reg = s.getV reg := rfl
@[simp] theorem State.readByte_trip (addr : Nat) : (s.trip).readByte addr = s.readByte addr := rfl

end tripFields

section exitRunFields
variable (s : State)

@[simp] theorem State.exitRun_mem : (s.exitRun).mem = s.mem := rfl
@[simp] theorem State.exitRun_v : (s.exitRun).v = s.v := rfl
@[simp] theorem State.exitRun_i : (s.exitRun).i = s.i := rfl
@[simp] theorem State.exitRun_pc : (s.exitRun).pc = s.pc := rfl
@[simp] theorem State.exitRun_sp : (s.exitRun).sp = s.sp := rfl
@[simp] theorem State.exitRun_stack : (s.exitRun).stack = s.stack := rfl
@[simp] theorem State.exitRun_dt : (s.exitRun).dt = s.dt := rfl
@[simp] theorem State.exitRun_st : (s.exitRun).st = s.st := rfl
@[simp] theorem State.exitRun_wait : (s.exitRun).wait = s.wait := rfl
@[simp] theorem State.exitRun_run : (s.exitRun).run = .halted := rfl
@[simp] theorem State.exitRun_fault : (s.exitRun).fault = s.fault := rfl
@[simp] theorem State.exitRun_invalidSeen : (s.exitRun).invalidSeen = s.invalidSeen := rfl
@[simp] theorem State.exitRun_fb : (s.exitRun).fb = s.fb := rfl
@[simp] theorem State.exitRun_snap : (s.exitRun).snap = s.snap := rfl
@[simp] theorem State.exitRun_snapReq : (s.exitRun).snapReq = s.snapReq := rfl
@[simp] theorem State.exitRun_ku : (s.exitRun).ku = s.ku := rfl
@[simp] theorem State.exitRun_kp : (s.exitRun).kp = s.kp := rfl
@[simp] theorem State.exitRun_fuse : (s.exitRun).fuse = s.fuse := rfl
@[simp] theorem State.exitRun_sched : (s.exitRun).sched = .exit := rfl
@[simp] theorem State.exitRun_batchLeft : (s.exitRun).batchLeft = s.batchLeft := rfl
@[simp] theorem State.exitRun_timerPending : (s.exitRun).timerPending = s.timerPending := rfl
@[simp] theorem State.exitRun_cfg : (s.exitRun).cfg = s.cfg := rfl
@[simp] theorem State.exitRun_env : (s.exitRun).env = s.env := rfl
@[simp] theorem State.getV_exitRun (reg : Reg) : (s.exitRun).getV reg = s.getV reg := rfl
@[simp] theorem State.readByte_exitRun (addr : Nat) : (s.exitRun).readByte addr = s.readByte addr := rfl

end exitRunFields

section timerPhaseFields
variable (s : State)

@[simp] theorem State.timerPhase_mem : (s.timerPhase).mem = s.mem := rfl
@[simp] theorem State.timerPhase_v : (s.timerPhase).v = s.v := rfl
@[simp] theorem State.timerPhase_i : (s.timerPhase).i = s.i := rfl
@[simp] theorem State.timerPhase_pc : (s.timerPhase).pc = s.pc := rfl
@[simp] theorem State.timerPhase_sp : (s.timerPhase).sp = s.sp := rfl
@[simp] theorem State.timerPhase_stack : (s.timerPhase).stack = s.stack := rfl
@[simp] theorem State.timerPhase_dt : (s.timerPhase).dt = satSub s.dt s.timerPending := rfl
@[simp] theorem State.timerPhase_st : (s.timerPhase).st = satSub s.st s.timerPending := rfl
@[simp] theorem State.timerPhase_wait : (s.timerPhase).wait = s.wait := rfl
@[simp] theorem State.timerPhase_run : (s.timerPhase).run = s.run := rfl
@[simp] theorem State.timerPhase_fault : (s.timerPhase).fault = s.fault := rfl
@[simp] theorem State.timerPhase_invalidSeen : (s.timerPhase).invalidSeen = s.invalidSeen := rfl
@[simp] theorem State.timerPhase_fb : (s.timerPhase).fb = s.fb := rfl
@[simp] theorem State.timerPhase_snap : (s.timerPhase).snap = s.snap := rfl
@[simp] theorem State.timerPhase_snapReq : (s.timerPhase).snapReq = s.snapReq := rfl
@[simp] theorem State.timerPhase_ku : (s.timerPhase).ku = s.ku := rfl
@[simp] theorem State.timerPhase_kp : (s.timerPhase).kp = s.kp := rfl
@[simp] theorem State.timerPhase_fuse : (s.timerPhase).fuse = s.fuse := rfl
@[simp] theorem State.timerPhase_sched : (s.timerPhase).sched = s.sched := rfl
@[simp] theorem State.timerPhase_batchLeft : (s.timerPhase).batchLeft = s.batchLeft := rfl
@[simp] theorem State.timerPhase_timerPending : (s.timerPhase).timerPending = 0#8 := rfl
@[simp] theorem State.timerPhase_cfg : (s.timerPhase).cfg = s.cfg := rfl
@[simp] theorem State.timerPhase_env : (s.timerPhase).env = s.env := rfl
@[simp] theorem State.getV_timerPhase (reg : Reg) : (s.timerPhase).getV reg = s.getV reg := rfl
@[simp] theorem State.readByte_timerPhase (addr : Nat) : (s.timerPhase).readByte addr = s.readByte addr := rfl

end timerPhaseFields

section dropMoveFields
variable (s : State)

@[simp] theorem State.dropMove_mem : (s.dropMove).mem = s.mem := rfl
@[simp] theorem State.dropMove_v : (s.dropMove).v = s.v := rfl
@[simp] theorem State.dropMove_i : (s.dropMove).i = s.i := rfl
@[simp] theorem State.dropMove_pc : (s.dropMove).pc = s.pc := rfl
@[simp] theorem State.dropMove_sp : (s.dropMove).sp = s.sp := rfl
@[simp] theorem State.dropMove_stack : (s.dropMove).stack = s.stack := rfl
@[simp] theorem State.dropMove_dt : (s.dropMove).dt = s.dt := rfl
@[simp] theorem State.dropMove_st : (s.dropMove).st = s.st := rfl
@[simp] theorem State.dropMove_wait : (s.dropMove).wait = s.wait := rfl
@[simp] theorem State.dropMove_run : (s.dropMove).run = s.run := rfl
@[simp] theorem State.dropMove_fault : (s.dropMove).fault = s.fault := rfl
@[simp] theorem State.dropMove_invalidSeen : (s.dropMove).invalidSeen = s.invalidSeen := rfl
@[simp] theorem State.dropMove_fb : (s.dropMove).fb = s.fb := rfl
@[simp] theorem State.dropMove_snap : (s.dropMove).snap = s.snap := rfl
@[simp] theorem State.dropMove_snapReq : (s.dropMove).snapReq = s.snapReq := rfl
@[simp] theorem State.dropMove_ku : (s.dropMove).ku = s.ku := rfl
@[simp] theorem State.dropMove_kp : (s.dropMove).kp = s.kp := rfl
@[simp] theorem State.dropMove_fuse : (s.dropMove).fuse = s.fuse := rfl
@[simp] theorem State.dropMove_sched : (s.dropMove).sched = s.sched := rfl
@[simp] theorem State.dropMove_batchLeft : (s.dropMove).batchLeft = s.batchLeft := rfl
@[simp] theorem State.dropMove_timerPending : (s.dropMove).timerPending = s.timerPending := rfl
@[simp] theorem State.dropMove_cfg : (s.dropMove).cfg = s.cfg := rfl
@[simp] theorem State.dropMove_env : (s.dropMove).env = { s.env with agenda := s.env.agenda.tail } := rfl
@[simp] theorem State.getV_dropMove (reg : Reg) : (s.dropMove).getV reg = s.getV reg := rfl
@[simp] theorem State.readByte_dropMove (addr : Nat) : (s.dropMove).readByte addr = s.readByte addr := rfl

end dropMoveFields

section scheduleFirstFields
variable (s : State) (m : Move)

@[simp] theorem State.scheduleFirst_mem : (State.scheduleFirst m s).mem = s.mem := rfl
@[simp] theorem State.scheduleFirst_v : (State.scheduleFirst m s).v = s.v := rfl
@[simp] theorem State.scheduleFirst_i : (State.scheduleFirst m s).i = s.i := rfl
@[simp] theorem State.scheduleFirst_pc : (State.scheduleFirst m s).pc = s.pc := rfl
@[simp] theorem State.scheduleFirst_sp : (State.scheduleFirst m s).sp = s.sp := rfl
@[simp] theorem State.scheduleFirst_stack : (State.scheduleFirst m s).stack = s.stack := rfl
@[simp] theorem State.scheduleFirst_dt : (State.scheduleFirst m s).dt = s.dt := rfl
@[simp] theorem State.scheduleFirst_st : (State.scheduleFirst m s).st = s.st := rfl
@[simp] theorem State.scheduleFirst_wait : (State.scheduleFirst m s).wait = s.wait := rfl
@[simp] theorem State.scheduleFirst_run : (State.scheduleFirst m s).run = s.run := rfl
@[simp] theorem State.scheduleFirst_fault : (State.scheduleFirst m s).fault = s.fault := rfl
@[simp] theorem State.scheduleFirst_invalidSeen : (State.scheduleFirst m s).invalidSeen = s.invalidSeen := rfl
@[simp] theorem State.scheduleFirst_fb : (State.scheduleFirst m s).fb = s.fb := rfl
@[simp] theorem State.scheduleFirst_snap : (State.scheduleFirst m s).snap = s.snap := rfl
@[simp] theorem State.scheduleFirst_snapReq : (State.scheduleFirst m s).snapReq = s.snapReq := rfl
@[simp] theorem State.scheduleFirst_ku : (State.scheduleFirst m s).ku = s.ku := rfl
@[simp] theorem State.scheduleFirst_kp : (State.scheduleFirst m s).kp = s.kp := rfl
@[simp] theorem State.scheduleFirst_fuse : (State.scheduleFirst m s).fuse = s.fuse := rfl
@[simp] theorem State.scheduleFirst_sched : (State.scheduleFirst m s).sched = s.sched := rfl
@[simp] theorem State.scheduleFirst_batchLeft : (State.scheduleFirst m s).batchLeft = s.batchLeft := rfl
@[simp] theorem State.scheduleFirst_timerPending : (State.scheduleFirst m s).timerPending = s.timerPending := rfl
@[simp] theorem State.scheduleFirst_cfg : (State.scheduleFirst m s).cfg = s.cfg := rfl
@[simp] theorem State.scheduleFirst_env : (State.scheduleFirst m s).env = { s.env with agenda := m :: s.env.agenda } := rfl
@[simp] theorem State.getV_scheduleFirst (reg : Reg) : (State.scheduleFirst m s).getV reg = s.getV reg := rfl
@[simp] theorem State.readByte_scheduleFirst (addr : Nat) : (State.scheduleFirst m s).readByte addr = s.readByte addr := rfl

end scheduleFirstFields

end Sys2Proof.Machine
end

