-- ==== Sys2Proof/Laws/Memory.lean ====
section
/-! SUPPORT. The laws of memory (spec/20_memory.md R81, R87): every operation keeps the canonical form, a read after a
write gives the value written, and a write leaves every other address alone. -/

namespace Sys2Proof.Machine

/-- Whether an address lies above an optional bound. -/
def above (lo : Option Nat) (a : Nat) : Prop := ∀ b, lo = some b → b < a

theorem above_none (a : Nat) : above none a := by intro b h; cases h

theorem above_some (b a : Nat) : above (some b) a ↔ b < a :=
  ⟨fun h => h b rfl, fun h c hc => by cases hc; exact h⟩

theorem Memory.wfAbove_cons (lo : Option Nat) (a : Nat) (x : Byte) (m : List Host.Cell) :
    Memory.wfAbove lo ((a, x) :: m) = true ↔
      above lo a ∧ a ≤ 0xFFF ∧ x ≠ 0#8 ∧ Memory.wfAbove (some a) m = true := by
  cases lo <;> simp [Memory.wfAbove, above, inRange, and_assoc]

theorem Memory.wf_nil : Memory.wf [] = true := rfl

/-- A list in canonical form above a bound is so above every smaller bound. -/
theorem Memory.wfAbove_mono {lo lo' : Option Nat} {m : List Host.Cell}
    (hlo : ∀ a, above lo a → above lo' a) (h : Memory.wfAbove lo m = true) : Memory.wfAbove lo' m = true := by
  cases m with
  | nil => cases lo' <;> rfl
  | cons c m =>
    obtain ⟨a, x⟩ := c
    rw [Memory.wfAbove_cons] at h ⊢
    exact ⟨hlo a h.1, h.2⟩

/-- An address at or below the bound is not listed, so it reads 0. -/
theorem Memory.get_of_not_above {b a : Nat} {m : List Host.Cell} (h : Memory.wfAbove (some b) m = true) (ha : a ≤ b) :
    Memory.get m a = 0#8 := by
  induction m generalizing b with
  | nil => rfl
  | cons c m ih =>
    obtain ⟨k, x⟩ := c
    rw [Memory.wfAbove_cons, above_some] at h
    have hk : ¬ k = a := by omega
    simp only [Memory.get, hk, if_false]
    exact ih h.2.2.2 (by omega)

/-- `put` keeps the canonical form. -/
theorem Memory.wfAbove_put {lo : Option Nat} {m : List Host.Cell} {a : Nat} (x : Byte)
    (h : Memory.wfAbove lo m = true) (hlo : above lo a) (ha : a ≤ 0xFFF) :
    Memory.wfAbove lo (Memory.put m a x) = true := by
  induction m generalizing lo with
  | nil =>
    by_cases hx : x = 0#8
    · simp [Memory.put, hx, Memory.wfAbove]
    · simp only [Memory.put, hx, if_false]
      rw [Memory.wfAbove_cons]
      exact ⟨hlo, ha, hx, rfl⟩
  | cons c m ih =>
    obtain ⟨k, w⟩ := c
    have h' := h
    rw [Memory.wfAbove_cons] at h'
    obtain ⟨h1, h2, h3, h4⟩ := h'
    unfold Memory.put
    by_cases hak : a < k
    · rw [if_pos hak]
      by_cases hx : x = 0#8
      · rw [if_pos hx]; exact h
      · rw [if_neg hx, Memory.wfAbove_cons, Memory.wfAbove_cons, above_some]
        exact ⟨hlo, ha, hx, hak, h2, h3, h4⟩
    · rw [if_neg hak]
      by_cases hek : a = k
      · subst hek
        rw [if_pos rfl]
        by_cases hx : x = 0#8
        · rw [if_pos hx]
          exact Memory.wfAbove_mono (fun b hb c hc => by have := hlo c hc; have := (above_some a b).1 hb; omega) h4
        · rw [if_neg hx, Memory.wfAbove_cons]
          exact ⟨hlo, ha, hx, h4⟩
      · rw [if_neg hek, Memory.wfAbove_cons]
        exact ⟨h1, h2, h3, ih h4 ((above_some k a).2 (by omega))⟩

/-- What a read gives after a `put`. -/
theorem Memory.get_put {lo : Option Nat} {m : List Host.Cell} (h : Memory.wfAbove lo m = true) (a b : Nat) (x : Byte) :
    Memory.get (Memory.put m a x) b = if a = b then x else Memory.get m b := by
  induction m generalizing lo with
  | nil =>
    by_cases hx : x = 0#8
    · by_cases hab : a = b <;> simp [Memory.put, Memory.get, hx]
    · simp [Memory.put, hx, Memory.get]
  | cons c m ih =>
    obtain ⟨k, w⟩ := c
    rw [Memory.wfAbove_cons] at h
    unfold Memory.put
    by_cases hak : a < k
    · have hz : Memory.get m a = 0#8 := Memory.get_of_not_above h.2.2.2 (by omega)
      rw [if_pos hak]
      by_cases hx : x = 0#8
      · rw [if_pos hx]
        by_cases hab : a = b
        · subst hab
          have hk : ¬ k = a := by omega
          simp [Memory.get, hk, hz, hx]
        · simp [hab]
      · rw [if_neg hx]; simp [Memory.get]
    · rw [if_neg hak]
      by_cases hek : a = k
      · subst hek
        rw [if_pos rfl]
        have hz : Memory.get m a = 0#8 := Memory.get_of_not_above h.2.2.2 (by omega)
        by_cases hx : x = 0#8
        · rw [if_pos hx]
          by_cases hab : a = b
          · subst hab; simp [hz, hx]
          · simp [Memory.get, hab]
        · rw [if_neg hx]
          by_cases hab : a = b <;> simp [Memory.get, hab]
      · rw [if_neg hek]
        by_cases hkb : k = b
        · subst hkb; simp [Memory.get, hek]
        · simp [Memory.get, hkb, ih h.2.2.2]

/-- A write keeps the canonical form. -/
theorem Memory.wf_write {m : Memory} (h : Memory.wf m = true) (a : Nat) (x : Byte) : Memory.wf (m.write a x) = true := by
  unfold Memory.write
  split
  · next ha => exact Memory.wfAbove_put x h (above_none a) (by simpa [inRange] using ha)
  · exact h

/-- Read after write: the value written at that address, every other address as before. -/
theorem Memory.get_write {m : Memory} (h : Memory.wf m = true) {a : Nat} (ha : a ≤ 0xFFF) (b : Nat) (x : Byte) :
    Memory.get (m.write a x) b = if a = b then x else Memory.get m b := by
  have hr : inRange a = true := by simpa [inRange] using ha
  simp only [Memory.write, hr, if_true]
  exact Memory.get_put h a b x

theorem Memory.wf_writeBytes {m : Memory} (h : Memory.wf m = true) (a : Nat) (xs : List Byte) :
    Memory.wf (Memory.writeBytes m a xs) = true := by
  induction xs generalizing m a with
  | nil => exact h
  | cons x xs ih => exact ih (Memory.wf_write h a x) (a + 1)

/-- What a read gives after a run of bytes is written inside memory. -/
theorem Memory.get_writeBytes {m : Memory} (h : Memory.wf m = true) {a : Nat} {xs : List Byte}
    (ha : a + xs.length ≤ 0x1000) (b : Nat) :
    Memory.get (Memory.writeBytes m a xs) b =
      if a ≤ b ∧ b < a + xs.length then xs.getD (b - a) 0#8 else Memory.get m b := by
  induction xs generalizing m a with
  | nil =>
    have hn : ¬ (a ≤ b ∧ b < a + ([] : List Byte).length) := by simp
    rw [if_neg hn]; rfl
  | cons x xs ih =>
    have hl : (x :: xs).length = xs.length + 1 := rfl
    have ha' : a + 1 + xs.length ≤ 0x1000 := by omega
    show Memory.get (Memory.writeBytes (m.write a x) (a + 1) xs) b = _
    rw [ih (Memory.wf_write h a x) ha', Memory.get_write h (by omega)]
    by_cases h1 : a + 1 ≤ b ∧ b < a + 1 + xs.length
    · have h2 : a ≤ b ∧ b < a + (x :: xs).length := by omega
      obtain ⟨k, hk⟩ : ∃ k, b = a + 1 + k := ⟨b - (a + 1), by omega⟩
      have e1 : b - (a + 1) = k := by omega
      have e2 : b - a = k + 1 := by omega
      rw [if_pos h1, if_pos h2, e1, e2]; rfl
    · rw [if_neg h1]
      by_cases hab : a = b
      · subst hab
        have h2 : a ≤ a ∧ a < a + (x :: xs).length := by omega
        rw [if_pos rfl, if_pos h2, Nat.sub_self]; rfl
      · have h2 : ¬ (a ≤ b ∧ b < a + (x :: xs).length) := by omega
        rw [if_neg hab, if_neg h2]

theorem Memory.wf_storedBlock {s : State} (h : Memory.wf s.mem = true) (base n : Nat) :
    Memory.wf (s.storedBlock base n) = true := by
  induction n with
  | zero => exact h
  | succ n ih => exact Memory.wf_write ih _ _

/-- What a read gives after a register block is stored inside memory (R260). -/
theorem Memory.get_storedBlock {s : State} (h : Memory.wf s.mem = true) {base n : Nat} (hb : base + n ≤ 0x1000) (b : Nat) :
    Memory.get (s.storedBlock base n) b =
      if base ≤ b ∧ b < base + n then s.getV (BitVec.ofNat 4 (b - base)) else Memory.get s.mem b := by
  induction n with
  | zero =>
    have hn : ¬ (base ≤ b ∧ b < base + 0) := by omega
    rw [if_neg hn]; rfl
  | succ n ih =>
    have hn : base + n ≤ 0x1000 := by omega
    show Memory.get ((s.storedBlock base n).write (base + n) _) b = _
    rw [Memory.get_write (Memory.wf_storedBlock h base n) (by omega), ih hn]
    by_cases hab : base + n = b
    · subst hab
      have e : base ≤ base + n ∧ base + n < base + (n + 1) := by omega
      rw [if_pos rfl, if_pos e, Nat.add_sub_cancel_left]
    · by_cases h1 : base ≤ b ∧ b < base + n
      · have h2 : base ≤ b ∧ b < base + (n + 1) := by omega
        rw [if_neg hab, if_pos h1, if_pos h2]
      · have h2 : ¬ (base ≤ b ∧ b < base + (n + 1)) := by omega
        rw [if_neg hab, if_neg h1, if_neg h2]

theorem Memory.wf_loadedMemory (c : Config) (image : List Byte) : Memory.wf (loadedMemory c image) = true :=
  Memory.wf_writeBytes (Memory.wf_writeBytes Memory.wf_nil _ _) _ _

theorem State.wf_writeByte {s : State} (h : Memory.wf s.mem = true) (a : Nat) (x : Byte) :
    Memory.wf (s.writeByte a x).mem = true := Memory.wf_write h a x

end Sys2Proof.Machine
end

