-- ==== Sys2Proof/Laws/Ops.lean ====
section
/-! SUPPORT. For each shared operation, everything it can do, said once. -/

namespace Sys2Proof.Machine

/-! ### Registers -/

/-- Read after write of a general register (R31): no register is hardwired. -/
@[simp] theorem State.getV_setV (s : State) (x r : Reg) (b : Byte) :
    (s.setV x b).getV r = if r = x then b else s.getV r := by
  unfold State.getV State.setV
  by_cases h : r = x
  · subst h; simp
  · have hn : ¬ x.toNat = r.toNat := fun e => h (BitVec.eq_of_toNat_eq e.symm)
    simp [h, hn]

/-- A result and its flag: the flag stays when X = F (R141 c). -/
@[simp] theorem State.getV_setVFlag (s : State) (x r : Reg) (b : Byte) (c : Bool) :
    (s.setVFlag x b c).getV r = if r = Reg.vf then flagByte c else if r = x then b else s.getV r := by
  simp only [State.setVFlag, State.getV_setV]

/-- A logic result under both values of `LOGIC_VF_RESET` (R144). -/
theorem State.getV_setVLogic (s : State) (x r : Reg) (b : Byte) :
    (s.setVLogic x b).getV r =
      if r = Reg.vf ∧ s.cfg.logicVfReset = .on then 0#8 else if r = x then b else s.getV r := by
  unfold State.setVLogic
  cases h : s.cfg.logicVfReset <;> simp [State.getV_setV]

/-- The optional flag of `FX1E` (R255). -/
theorem State.getV_setIndexFlag (s : State) (n : Nat) (r : Reg) :
    (s.setIndexFlag n).getV r =
      if r = Reg.vf ∧ s.cfg.fx1eVf = .overflowFff then flagByte (indexOverflow n) else s.getV r := by
  unfold State.setIndexFlag
  cases h : s.cfg.fx1eVf <;> simp [State.getV_setV]

theorem State.getV_completeWait (s : State) (k : Nat) (r : Reg) :
    (s.completeWait k).getV r = if r = s.wait.x then BitVec.ofNat 8 k else s.getV r :=
  State.getV_setV s s.wait.x r (BitVec.ofNat 8 k)

/-- What a register holds after a block load of at most 16 registers (R261). -/
theorem State.getV_loadedBlock (s : State) (base : Nat) {n : Nat} (hn : n ≤ 16) (r : Reg) :
    (s.loadedBlock base n).getV r = if r.toNat < n then s.readByte (base + r.toNat) else s.getV r := by
  induction n with
  | zero => simp [State.loadedBlock]
  | succ n ih =>
    have hnn : (BitVec.ofNat 4 n).toNat = n := by simp; omega
    have hr : (r = BitVec.ofNat 4 n) ↔ r.toNat = n :=
      ⟨fun e => by rw [e, hnn], fun e => BitVec.eq_of_toNat_eq (by rw [hnn, e])⟩
    simp only [State.loadedBlock, State.getV_setV, ih (by omega : n ≤ 16), hr]
    by_cases h1 : r.toNat = n
    · rw [if_pos h1, if_pos (by omega), h1]
    · by_cases h2 : r.toNat < n
      · rw [if_neg h1, if_pos h2, if_pos (by omega)]
      · rw [if_neg h1, if_neg h2, if_neg (by omega)]

/-! ### Outcomes -/

/-- What a checked operation can answer: the fault taken, or the operation's own effect. -/
theorem orRaise_cases {check : Option Fault} {s k t : State} (h : orRaise check s k = .next t) :
    (∃ f, check = some f ∧ t = s.takeFault f s.fetchedWord) ∨ (check = none ∧ t = k) := by
  cases check with
  | none => exact .inr ⟨rfl, by simpa [orRaise] using h.symm⟩
  | some f => exact .inl ⟨f, rfl, by simpa [orRaise, raise] using h.symm⟩

@[simp] theorem orRaise_none (s k : State) : orRaise none s k = .next k := rfl

@[simp] theorem orRaise_some (f : Fault) (s k : State) : orRaise (some f) s k = .next (s.takeFault f s.fetchedWord) := rfl

/-- A checked operation always answers a next state. -/
theorem orRaise_next (check : Option Fault) (s k : State) : ∃ t, orRaise check s k = .next t := by
  cases check <;> exact ⟨_, rfl⟩

@[simp] theorem onNext_next (s : State) (k : State → State) : onNext (.next s) k = .next (k s) := rfl

theorem onNext_eq_next {o : Host.Outcome State Fault Refusal} {k : State → State} {t : State}
    (h : onNext o k = .next t) : ∃ u, o = .next u ∧ t = k u := by
  cases o with
  | next u => exact ⟨u, rfl, by simpa [onNext] using h.symm⟩
  | fault f => simp [onNext] at h
  | refused r => simp [onNext] at h

/-! ### The range check (R81) -/

/-- An access that stays inside memory raises nothing. -/
theorem rangeFault_none {base n : Nat} (h : base + n ≤ 0x1000) : rangeFault base n = none := by
  unfold rangeFault; rw [if_neg (by omega)]

/-- An access of no bytes raises nothing. -/
theorem rangeFault_zero (base : Nat) : rangeFault base 0 = none := by
  unfold rangeFault; rw [if_neg (by omega)]

/-- An access that leaves memory raises the fault, with the lowest out-of-range address. -/
theorem rangeFault_some {base n : Nat} (h0 : 0 < n) (h : 0x1000 < base + n) :
    rangeFault base n = some (.memoryOutOfBounds (BitVec.ofNat 17 (max base 0x1000))) := by
  unfold rangeFault; rw [if_pos ⟨h0, by omega⟩]

/-- The only fault a range check raises. -/
theorem rangeFault_cases (base n : Nat) :
    (rangeFault base n = none ∧ (n = 0 ∨ base + n ≤ 0x1000)) ∨
    (rangeFault base n = some (.memoryOutOfBounds (BitVec.ofNat 17 (max base 0x1000))) ∧ 0 < n ∧ 0x1000 < base + n) := by
  unfold rangeFault
  split
  · next h => exact .inr ⟨rfl, h.1, by omega⟩
  · next h => exact .inl ⟨rfl, by omega⟩

/-! ### Draws (R253) -/

theorem State.afterDraw_answers (s : State) : s.afterDraw.env.answers = s.env.answers.tail := by
  unfold State.afterDraw; split <;> simp_all

theorem State.afterDraw_agenda (s : State) : s.afterDraw.env.agenda = s.env.agenda := by
  unfold State.afterDraw; split <;> rfl

end Sys2Proof.Machine
end

