-- ==== Sys2Proof/Laws/PerInstr.lean ====
section
/-! SUPPORT. Statements for all instructions, one lemma per constructor. The family TableRow: the word of an instruction
matches its row of the opcode table (spec/30_encoding.md R114), and the row is in the table. -/

namespace Sys2Proof.Laws.TableRow

/-- The word the encoder gives an instruction matches the instruction's row, which the table holds. -/
def Statement (i : Instr) : Prop := i.row.matchesWord (encode i) = true ∧ i.row ∈ opcodeTable

/-- A word of four nibbles and a mask that keeps the first and the last. -/
theorem mask_wordXYN (c x y n : BitVec 4) : wordXYN c x y n &&& 0xF00F#16 = wordXYN c 0#4 0#4 n := by
  apply BitVec.eq_of_getLsbD_eq; intro j hj
  simp only [wordXYN, BitVec.getLsbD_and, BitVec.getLsbD_append]
  have hcases : j = 0 ∨ j = 1 ∨ j = 2 ∨ j = 3 ∨ j = 4 ∨ j = 5 ∨ j = 6 ∨ j = 7 ∨ j = 8 ∨ j = 9 ∨ j = 10 ∨ j = 11 ∨
      j = 12 ∨ j = 13 ∨ j = 14 ∨ j = 15 := by omega
  rcases hcases with h | h | h | h | h | h | h | h | h | h | h | h | h | h | h | h <;> subst h <;> simp

theorem mask_wordXYN_class (c x y n : BitVec 4) : wordXYN c x y n &&& 0xF000#16 = wordXYN c 0#4 0#4 0#4 := by
  apply BitVec.eq_of_getLsbD_eq; intro j hj
  simp only [wordXYN, BitVec.getLsbD_and, BitVec.getLsbD_append]
  have hcases : j = 0 ∨ j = 1 ∨ j = 2 ∨ j = 3 ∨ j = 4 ∨ j = 5 ∨ j = 6 ∨ j = 7 ∨ j = 8 ∨ j = 9 ∨ j = 10 ∨ j = 11 ∨
      j = 12 ∨ j = 13 ∨ j = 14 ∨ j = 15 := by omega
  rcases hcases with h | h | h | h | h | h | h | h | h | h | h | h | h | h | h | h <;> subst h <;> simp

/-- A word of class, register and byte under a mask that drops the register only. -/
theorem mask_wordXNn (c x : BitVec 4) (nn : Byte) : wordXNn c x nn &&& 0xF0FF#16 = wordXNn c 0#4 nn := by
  apply BitVec.eq_of_getLsbD_eq; intro j hj
  simp only [wordXNn, BitVec.getLsbD_and, BitVec.getLsbD_append]
  have hcases : j = 0 ∨ j = 1 ∨ j = 2 ∨ j = 3 ∨ j = 4 ∨ j = 5 ∨ j = 6 ∨ j = 7 ∨ j = 8 ∨ j = 9 ∨ j = 10 ∨ j = 11 ∨
      j = 12 ∨ j = 13 ∨ j = 14 ∨ j = 15 := by omega
  rcases hcases with h | h | h | h | h | h | h | h | h | h | h | h | h | h | h | h <;> subst h <;> simp

theorem mask_wordXNn_class (c x : BitVec 4) (nn : Byte) : wordXNn c x nn &&& 0xF000#16 = wordXNn c 0#4 0#8 := by
  apply BitVec.eq_of_getLsbD_eq; intro j hj
  simp only [wordXNn, BitVec.getLsbD_and, BitVec.getLsbD_append]
  have hcases : j = 0 ∨ j = 1 ∨ j = 2 ∨ j = 3 ∨ j = 4 ∨ j = 5 ∨ j = 6 ∨ j = 7 ∨ j = 8 ∨ j = 9 ∨ j = 10 ∨ j = 11 ∨
      j = 12 ∨ j = 13 ∨ j = 14 ∨ j = 15 := by omega
  rcases hcases with h | h | h | h | h | h | h | h | h | h | h | h | h | h | h | h <;> subst h <;> simp

theorem mask_wordNnn (c : BitVec 4) (nnn : Addr12) : wordNnn c nnn &&& 0xF000#16 = wordNnn c 0#12 := by
  apply BitVec.eq_of_getLsbD_eq; intro j hj
  simp only [wordNnn, BitVec.getLsbD_and, BitVec.getLsbD_append]
  have hcases : j = 0 ∨ j = 1 ∨ j = 2 ∨ j = 3 ∨ j = 4 ∨ j = 5 ∨ j = 6 ∨ j = 7 ∨ j = 8 ∨ j = 9 ∨ j = 10 ∨ j = 11 ∨
      j = 12 ∨ j = 13 ∨ j = 14 ∨ j = 15 := by omega
  rcases hcases with h | h | h | h | h | h | h | h | h | h | h | h | h | h | h | h <;> subst h <;> simp

theorem cls : Statement (.cls) := by constructor <;> decide

theorem ret : Statement (.ret) := by constructor <;> decide

theorem jpNnn (nnn : Addr12) : Statement (.jpNnn nnn) := by
  refine ⟨?_, by simp [Instr.row, opcodeTable, opcodeRowsA, opcodeRowsB, opcodeRowsC]⟩
  simp only [Instr.row, OpcodeRow.matchesWord, encode, mask_wordNnn]; rfl

theorem callNnn (nnn : Addr12) : Statement (.callNnn nnn) := by
  refine ⟨?_, by simp [Instr.row, opcodeTable, opcodeRowsA, opcodeRowsB, opcodeRowsC]⟩
  simp only [Instr.row, OpcodeRow.matchesWord, encode, mask_wordNnn]; rfl

theorem seVxNn (x : Reg) (nn : Byte) : Statement (.seVxNn x nn) := by
  refine ⟨?_, by simp [Instr.row, opcodeTable, opcodeRowsA, opcodeRowsB, opcodeRowsC]⟩
  simp only [Instr.row, OpcodeRow.matchesWord, encode, mask_wordXNn_class]; rfl

theorem sneVxNn (x : Reg) (nn : Byte) : Statement (.sneVxNn x nn) := by
  refine ⟨?_, by simp [Instr.row, opcodeTable, opcodeRowsA, opcodeRowsB, opcodeRowsC]⟩
  simp only [Instr.row, OpcodeRow.matchesWord, encode, mask_wordXNn_class]; rfl

theorem seVxVy (x : Reg) (y : Reg) : Statement (.seVxVy x y) := by
  refine ⟨?_, by simp [Instr.row, opcodeTable, opcodeRowsA, opcodeRowsB, opcodeRowsC]⟩
  simp only [Instr.row, OpcodeRow.matchesWord, encode, mask_wordXYN]; rfl

theorem ldVxNn (x : Reg) (nn : Byte) : Statement (.ldVxNn x nn) := by
  refine ⟨?_, by simp [Instr.row, opcodeTable, opcodeRowsA, opcodeRowsB, opcodeRowsC]⟩
  simp only [Instr.row, OpcodeRow.matchesWord, encode, mask_wordXNn_class]; rfl

theorem addVxNn (x : Reg) (nn : Byte) : Statement (.addVxNn x nn) := by
  refine ⟨?_, by simp [Instr.row, opcodeTable, opcodeRowsA, opcodeRowsB, opcodeRowsC]⟩
  simp only [Instr.row, OpcodeRow.matchesWord, encode, mask_wordXNn_class]; rfl

theorem ldVxVy (x : Reg) (y : Reg) : Statement (.ldVxVy x y) := by
  refine ⟨?_, by simp [Instr.row, opcodeTable, opcodeRowsA, opcodeRowsB, opcodeRowsC]⟩
  simp only [Instr.row, OpcodeRow.matchesWord, encode, mask_wordXYN]; rfl

theorem orVxVy (x : Reg) (y : Reg) : Statement (.orVxVy x y) := by
  refine ⟨?_, by simp [Instr.row, opcodeTable, opcodeRowsA, opcodeRowsB, opcodeRowsC]⟩
  simp only [Instr.row, OpcodeRow.matchesWord, encode, mask_wordXYN]; rfl

theorem andVxVy (x : Reg) (y : Reg) : Statement (.andVxVy x y) := by
  refine ⟨?_, by simp [Instr.row, opcodeTable, opcodeRowsA, opcodeRowsB, opcodeRowsC]⟩
  simp only [Instr.row, OpcodeRow.matchesWord, encode, mask_wordXYN]; rfl

theorem xorVxVy (x : Reg) (y : Reg) : Statement (.xorVxVy x y) := by
  refine ⟨?_, by simp [Instr.row, opcodeTable, opcodeRowsA, opcodeRowsB, opcodeRowsC]⟩
  simp only [Instr.row, OpcodeRow.matchesWord, encode, mask_wordXYN]; rfl

theorem addVxVy (x : Reg) (y : Reg) : Statement (.addVxVy x y) := by
  refine ⟨?_, by simp [Instr.row, opcodeTable, opcodeRowsA, opcodeRowsB, opcodeRowsC]⟩
  simp only [Instr.row, OpcodeRow.matchesWord, encode, mask_wordXYN]; rfl

theorem subVxVy (x : Reg) (y : Reg) : Statement (.subVxVy x y) := by
  refine ⟨?_, by simp [Instr.row, opcodeTable, opcodeRowsA, opcodeRowsB, opcodeRowsC]⟩
  simp only [Instr.row, OpcodeRow.matchesWord, encode, mask_wordXYN]; rfl

theorem shrVxVy (x : Reg) (y : Reg) : Statement (.shrVxVy x y) := by
  refine ⟨?_, by simp [Instr.row, opcodeTable, opcodeRowsA, opcodeRowsB, opcodeRowsC]⟩
  simp only [Instr.row, OpcodeRow.matchesWord, encode, mask_wordXYN]; rfl

theorem subnVxVy (x : Reg) (y : Reg) : Statement (.subnVxVy x y) := by
  refine ⟨?_, by simp [Instr.row, opcodeTable, opcodeRowsA, opcodeRowsB, opcodeRowsC]⟩
  simp only [Instr.row, OpcodeRow.matchesWord, encode, mask_wordXYN]; rfl

theorem shlVxVy (x : Reg) (y : Reg) : Statement (.shlVxVy x y) := by
  refine ⟨?_, by simp [Instr.row, opcodeTable, opcodeRowsA, opcodeRowsB, opcodeRowsC]⟩
  simp only [Instr.row, OpcodeRow.matchesWord, encode, mask_wordXYN]; rfl

theorem sneVxVy (x : Reg) (y : Reg) : Statement (.sneVxVy x y) := by
  refine ⟨?_, by simp [Instr.row, opcodeTable, opcodeRowsA, opcodeRowsB, opcodeRowsC]⟩
  simp only [Instr.row, OpcodeRow.matchesWord, encode, mask_wordXYN]; rfl

theorem ldINnn (nnn : Addr12) : Statement (.ldINnn nnn) := by
  refine ⟨?_, by simp [Instr.row, opcodeTable, opcodeRowsA, opcodeRowsB, opcodeRowsC]⟩
  simp only [Instr.row, OpcodeRow.matchesWord, encode, mask_wordNnn]; rfl

theorem jpV0Nnn (nnn : Addr12) : Statement (.jpV0Nnn nnn) := by
  refine ⟨?_, by simp [Instr.row, opcodeTable, opcodeRowsA, opcodeRowsB, opcodeRowsC]⟩
  simp only [Instr.row, OpcodeRow.matchesWord, encode, mask_wordNnn]; rfl

theorem rndVxNn (x : Reg) (nn : Byte) : Statement (.rndVxNn x nn) := by
  refine ⟨?_, by simp [Instr.row, opcodeTable, opcodeRowsA, opcodeRowsB, opcodeRowsC]⟩
  simp only [Instr.row, OpcodeRow.matchesWord, encode, mask_wordXNn_class]; rfl

theorem drwVxVyN (x : Reg) (y : Reg) (n : BitVec 4) : Statement (.drwVxVyN x y n) := by
  refine ⟨?_, by simp [Instr.row, opcodeTable, opcodeRowsA, opcodeRowsB, opcodeRowsC]⟩
  simp only [Instr.row, OpcodeRow.matchesWord, encode, mask_wordXYN_class]; rfl

theorem skpVx (x : Reg) : Statement (.skpVx x) := by
  refine ⟨?_, by simp [Instr.row, opcodeTable, opcodeRowsA, opcodeRowsB, opcodeRowsC]⟩
  simp only [Instr.row, OpcodeRow.matchesWord, encode, mask_wordXNn]; rfl

theorem sknpVx (x : Reg) : Statement (.sknpVx x) := by
  refine ⟨?_, by simp [Instr.row, opcodeTable, opcodeRowsA, opcodeRowsB, opcodeRowsC]⟩
  simp only [Instr.row, OpcodeRow.matchesWord, encode, mask_wordXNn]; rfl

theorem ldVxDt (x : Reg) : Statement (.ldVxDt x) := by
  refine ⟨?_, by simp [Instr.row, opcodeTable, opcodeRowsA, opcodeRowsB, opcodeRowsC]⟩
  simp only [Instr.row, OpcodeRow.matchesWord, encode, mask_wordXNn]; rfl

theorem ldVxK (x : Reg) : Statement (.ldVxK x) := by
  refine ⟨?_, by simp [Instr.row, opcodeTable, opcodeRowsA, opcodeRowsB, opcodeRowsC]⟩
  simp only [Instr.row, OpcodeRow.matchesWord, encode, mask_wordXNn]; rfl

theorem ldDtVx (x : Reg) : Statement (.ldDtVx x) := by
  refine ⟨?_, by simp [Instr.row, opcodeTable, opcodeRowsA, opcodeRowsB, opcodeRowsC]⟩
  simp only [Instr.row, OpcodeRow.matchesWord, encode, mask_wordXNn]; rfl

theorem ldStVx (x : Reg) : Statement (.ldStVx x) := by
  refine ⟨?_, by simp [Instr.row, opcodeTable, opcodeRowsA, opcodeRowsB, opcodeRowsC]⟩
  simp only [Instr.row, OpcodeRow.matchesWord, encode, mask_wordXNn]; rfl

theorem addIVx (x : Reg) : Statement (.addIVx x) := by
  refine ⟨?_, by simp [Instr.row, opcodeTable, opcodeRowsA, opcodeRowsB, opcodeRowsC]⟩
  simp only [Instr.row, OpcodeRow.matchesWord, encode, mask_wordXNn]; rfl

theorem ldFVx (x : Reg) : Statement (.ldFVx x) := by
  refine ⟨?_, by simp [Instr.row, opcodeTable, opcodeRowsA, opcodeRowsB, opcodeRowsC]⟩
  simp only [Instr.row, OpcodeRow.matchesWord, encode, mask_wordXNn]; rfl

theorem ldBVx (x : Reg) : Statement (.ldBVx x) := by
  refine ⟨?_, by simp [Instr.row, opcodeTable, opcodeRowsA, opcodeRowsB, opcodeRowsC]⟩
  simp only [Instr.row, OpcodeRow.matchesWord, encode, mask_wordXNn]; rfl

theorem ldMemVx (x : Reg) : Statement (.ldMemVx x) := by
  refine ⟨?_, by simp [Instr.row, opcodeTable, opcodeRowsA, opcodeRowsB, opcodeRowsC]⟩
  simp only [Instr.row, OpcodeRow.matchesWord, encode, mask_wordXNn]; rfl

theorem ldVxMem (x : Reg) : Statement (.ldVxMem x) := by
  refine ⟨?_, by simp [Instr.row, opcodeTable, opcodeRowsA, opcodeRowsB, opcodeRowsC]⟩
  simp only [Instr.row, OpcodeRow.matchesWord, encode, mask_wordXNn]; rfl

end Sys2Proof.Laws.TableRow
end

