-- ==== Sys2Proof/Laws/Step.lean ====
section
/-! SUPPORT. What one step can do, said once: the moves of the agents, the Interpreter step and the Scheduler's
transitions. -/

namespace Sys2Proof.Machine

/-- A step is the next agent's move. -/
theorem step_eq (s : State) : step s = agentMove s.nextMove s.dropMove := rfl

/-- A step whose move is known. -/
theorem step_of_nextMove {s : State} {m : Move} (h : s.nextMove = m) : step s = agentMove m s.dropMove := by
  rw [step_eq, h]

@[simp] theorem State.nextMove_scheduleFirst (m : Move) (s : State) : (State.scheduleFirst m s).nextMove = m := rfl

@[simp] theorem State.dropMove_scheduleFirst (m : Move) (s : State) : (State.scheduleFirst m s).dropMove = s := rfl

/-- The fetch reads `MEM`, `PC` and the odd-PC policy only. -/
@[simp] theorem State.fetchFault_dropMove (s : State) : s.dropMove.fetchFault = s.fetchFault := rfl

@[simp] theorem State.fetchedWord_dropMove (s : State) : s.dropMove.fetchedWord = s.fetchedWord := rfl

@[simp] theorem State.fetchBytes_dropMove (s : State) : s.dropMove.fetchBytes = s.fetchBytes := rfl

/-- Decoding the bytes at `PC` is decoding the fetched word (R82). -/
theorem decode_fetchBytes (s : State) :
    decode s.fetchBytes =
      match decodeWord s.fetchedWord with
      | .ok i => .ok (i, [])
      | .reject r => .reject r := rfl

/-- What runs after a passed fetch: the decoded instruction, or what the policy says of an invalid word. -/
theorem runFetched_eq (s : State) :
    runFetched s = match decodeWord s.fetchedWord with
      | .ok i => exec i s
      | .reject _ => invalidWord s := by
  unfold runFetched
  rw [decode_fetchBytes]
  cases decodeWord s.fetchedWord <;> rfl

theorem invalidWord_fatal {s : State} (h : s.cfg.invalidOpcode = .fatal) :
    invalidWord s = .next (s.takeFault .invalidOpcode s.fetchedWord) := by
  unfold invalidWord; rw [h]; rfl

theorem invalidWord_skip {s : State} (h : s.cfg.invalidOpcode = .skip) :
    invalidWord s = .next { s.advance with invalidSeen := true } := by
  unfold invalidWord; rw [h]

/-- The ways an Interpreter step can go (R113). -/
theorem interpStep_cases (s : State) :
    (s.run ≠ .running ∧ interpStep s = .next s) ∨
    (s.run = .running ∧ s.wait.active = true ∧ interpStep s = .next s.keyWaitPoll) ∨
    (s.run = .running ∧ s.wait.active = false ∧ ∃ f, s.fetchFault = some f ∧ interpStep s = .next (s.takeFault f 0#16)) ∨
    (s.run = .running ∧ s.wait.active = false ∧ s.fetchFault = none ∧ interpStep s = runFetched s) := by
  unfold interpStep
  cases hr : s.run with
  | unloaded => exact .inl ⟨by simp, rfl⟩
  | halted => exact .inl ⟨by simp, rfl⟩
  | running =>
    cases hw : s.wait.active with
    | true => exact .inr (.inl ⟨rfl, rfl, rfl⟩)
    | false =>
      cases hf : s.fetchFault with
      | some f => exact .inr (.inr (.inl ⟨rfl, rfl, f, rfl, by simp [fetchAndRun, hf]⟩))
      | none => exact .inr (.inr (.inr ⟨rfl, rfl, rfl, by simp [fetchAndRun, hf]⟩))

/-- The ways a key-wait poll can go (R226). -/
theorem keyWaitPoll_cases (s : State) :
    (lowestKey s.candidateKeys = none ∧ s.keyWaitPoll = s.keepWaiting) ∨
    (∃ k, lowestKey s.candidateKeys = some k ∧ s.keyWaitPoll = s.completeWait k) := by
  unfold State.keyWaitPoll
  cases h : lowestKey s.candidateKeys with
  | none => exact .inl ⟨rfl, rfl⟩
  | some k => exact .inr ⟨k, rfl, rfl⟩

/-- What a search for the lowest key finds. -/
theorem lowestKeyFrom_some {w : Word} {k fuel j : Nat} (h : lowestKeyFrom w k fuel = some j) :
    k ≤ j ∧ j < k + fuel ∧ w.getLsbD j = true ∧ ∀ l, k ≤ l → l < j → w.getLsbD l = false := by
  induction fuel generalizing k with
  | zero => simp [lowestKeyFrom] at h
  | succ fuel ih =>
    unfold lowestKeyFrom at h
    split at h
    · next hk =>
      cases h
      exact ⟨Nat.le_refl _, by omega, hk, fun l h1 h2 => by omega⟩
    · next hk =>
      obtain ⟨h1, h2, h3, h4⟩ := ih h
      refine ⟨by omega, by omega, h3, fun l hl1 hl2 => ?_⟩
      by_cases hlk : l = k
      · subst hlk; simpa using hk
      · exact h4 l (by omega) hl2

theorem lowestKeyFrom_none {w : Word} {k fuel : Nat} (h : lowestKeyFrom w k fuel = none) :
    ∀ l, k ≤ l → l < k + fuel → w.getLsbD l = false := by
  induction fuel generalizing k with
  | zero => intro l h1 h2; omega
  | succ fuel ih =>
    unfold lowestKeyFrom at h
    split at h
    · cases h
    · next hk =>
      intro l h1 h2
      by_cases hlk : l = k
      · subst hlk; simpa using hk
      · exact ih h l (by omega) (by omega)

/-- The report of a batch step: what decides how the Scheduler goes on (R320, R323). -/
theorem afterBatchStep_cases (s t : State) :
    (s.run = .running ∧ t.run ≠ .running ∧ afterBatchStep s t = { t.trip with sched := .exit }) ∨
    (¬(s.run = .running ∧ t.run ≠ .running) ∧
      afterBatchStep s t = { t with batchLeft := t.batchLeft - 1,
                                    sched := if t.batchLeft - 1 = 0 then .timer else .batch }) := by
  unfold afterBatchStep stepReport
  by_cases h1 : s.run = .running
  · by_cases h2 : t.run = .running
    · refine .inr ⟨fun h => h.2 h2, ?_⟩
      rw [if_neg (not_not_intro h1), if_neg (not_not_intro h2)]
      cases t.wait.active <;> rfl
    · refine .inl ⟨h1, h2, ?_⟩
      rw [if_neg (not_not_intro h1), if_pos h2]
  · refine .inr ⟨fun h => h1 h.1, ?_⟩
    rw [if_pos h1]

/-- A batch transition is an Interpreter step and what the Scheduler does with it. -/
theorem coreMove_batch {s : State} (h : s.sched = .batch) : coreMove s = onNext (interpStep s) (afterBatchStep s) := by
  unfold coreMove; rw [h]; rfl

theorem coreMove_timer {s : State} (h : s.sched = .timer) : coreMove s = .next (timerTransition s) := by
  unfold coreMove; rw [h]

theorem coreMove_sleep {s : State} (h : s.sched = .sleep) : coreMove s = .next s := by
  unfold coreMove; rw [h]

theorem coreMove_exit {s : State} (h : s.sched = .exit) : coreMove s = .next s := by
  unfold coreMove; rw [h]

/-- The ways a load can go (R371). -/
theorem loadMove_cases (image : List Byte) (s : State) :
    (s.run = .unloaded ∧ loadReply s.cfg image = .ok ∧ loadMove image s = loadImage image s) ∨ loadMove image s = s := by
  unfold loadMove
  cases hr : s.run with
  | running => exact .inr rfl
  | halted => exact .inr rfl
  | unloaded =>
    cases hl : loadReply s.cfg image with
    | ok => exact .inl ⟨rfl, rfl, rfl⟩
    | badConfig => exact .inr rfl
    | empty => exact .inr rfl
    | oversized => exact .inr rfl

/-- A load that succeeds had a valid configuration and an image of 1 to 0xE00 bytes (R371). -/
theorem loadReply_ok {c : Config} {image : List Byte} (h : loadReply c image = .ok) :
    configValid c = true ∧ 0 < image.length ∧ image.length ≤ 0xE00 := by
  unfold loadReply at h
  split at h
  · cases h
  · next h1 =>
    split at h
    · cases h
    · next h2 =>
      split at h
      · cases h
      · next h3 => exact ⟨by simpa using h1, by omega, by omega⟩

/-- The ways a configuration can go (R48 IF_CFG). -/
theorem configureMove_cases (c : Config) (s : State) :
    (s.run = .unloaded ∧ configureMove c s = { s with cfg := c, stack := List.replicate c.stackDepth 0#16 }) ∨
    (s.run ≠ .unloaded ∧ configureMove c s = s) := by
  unfold configureMove
  cases hr : s.run with
  | unloaded => exact .inl ⟨rfl, rfl⟩
  | running => exact .inr ⟨by simp, rfl⟩
  | halted => exact .inr ⟨by simp, rfl⟩

/-! ### Pixels -/

/-- What toggling one pixel does to every pixel of the grid. -/
theorem pixel_toggle (f : Frame) {x y : Nat} (hx : x < 64) (hy : y < 32) (px py : Nat) :
    Frame.pixel (Frame.toggle f x y) px py = (Frame.pixel f px py ^^ (decide (px = x) && decide (py = y))) := by
  unfold Frame.pixel Frame.toggle
  rw [dif_pos hy]
  by_cases hpy : py < 32
  · rw [dif_pos hpy, dif_pos hpy, Vector.getElem_set]
    by_cases he : y = py
    · subst he
      by_cases hpx : px = x
      · subst hpx; simp [hx]
      · have : ¬ x = px := fun e => hpx e.symm
        simp [BitVec.getLsbD_twoPow, hpx, this]
    · have : ¬ py = y := fun e => he e.symm
      simp [he, this]
  · have : ¬ py = y := by omega
    simp [hpy, this]

end Sys2Proof.Machine
end

