-- ==== Sys2Proof/Laws/Runs.lean ====
section
/-! SUPPORT. What the moves of a run are and do: one step under a schedule, the moves fairness obliges, the default moves,
and runs in which nothing more has to come. -/

namespace Sys2Proof.Machine

/-- A step with one move put first is that move. -/
theorem step_scheduleFirst (m : Move) (s : State) : step (s.scheduleFirst m) = agentMove m s := rfl

/-- One step of a run under a schedule. -/
theorem runsUnder_step {moves : Schedule} {r : Nat → State} (h : runsUnder moves r) (n : Nat) :
    agentMove (moves n) (r n) = .next (r (n + 1)) := h n

/-- The moves fairness obliges (R8). -/
theorem Move.obliged_cases {m : Move} (h : m.obliged = true) :
    m = .core ∨ m = .tick ∨ m = .timerTick ∨ m = .snapCapture ∨ ∃ k, m = .inputSync k := by
  cases m <;> simp_all [Move.obliged]

/-- Nothing that fairness obliges is enabled. -/
def State.quiet (s : State) : Prop := ∀ m : Move, m.obliged = true → m.enabled s = false

/-- When nothing that fairness obliges is enabled. -/
theorem State.quiet_of {s : State} (hc : Move.enabled .core s = false) (ht : Move.enabled .tick s = false)
    (hs : Move.enabled .timerTick s = false) (hr : s.snapReq = false) (hk : s.kp = s.ku) : s.quiet := by
  intro m hm
  obtain rfl | rfl | rfl | rfl | ⟨k, rfl⟩ := Move.obliged_cases hm
  · exact hc
  · exact ht
  · exact hs
  · exact hr
  · simp [Move.enabled, hk]

/-- A run that is quiet from some step on is fair, whatever its schedule. -/
theorem fair_of_quiet {moves : Schedule} {r : Nat → State} (n₀ : Nat) (h : ∀ n, n₀ ≤ n → (r n).quiet) : fair moves r :=
  fun m n hm _ => ⟨max n₀ n, le_max_right _ _, .inr (h _ (le_max_left _ _) m hm)⟩

theorem State.defaultMove_batch {s : State} (h : s.sched = .batch) : s.defaultMove = .core := by
  unfold State.defaultMove; rw [h]

theorem State.defaultMove_timer {s : State} (h : s.sched = .timer) : s.defaultMove = .core := by
  unfold State.defaultMove; rw [h]

theorem State.defaultMove_sleep {s : State} (h : s.sched = .sleep) :
    s.defaultMove = s.waitingCrossing.getD s.sleepMove := by
  unfold State.defaultMove; rw [h]

theorem State.defaultMove_exit {s : State} (h : s.sched = .exit) : s.defaultMove = s.waitingCrossing.getD .core := by
  unfold State.defaultMove; rw [h]

/-- The crossing that waits, if any (R211, R241): each case says what it is and that it is enabled. -/
theorem State.waitingCrossing_cases (s : State) :
    (s.snapReq = true ∧ s.waitingCrossing = some .snapCapture) ∨
    (∃ k : BitVec 4, s.waitingCrossing = some (.inputSync k) ∧ s.snapReq = false ∧
      s.ku.getLsbD k.toNat ≠ s.kp.getLsbD k.toNat) ∨
    (s.waitingCrossing = none ∧ s.snapReq = false ∧ ∀ k : BitVec 4, s.ku.getLsbD k.toNat = s.kp.getLsbD k.toNat) := by
  unfold State.waitingCrossing
  cases hr : s.snapReq with
  | true => exact .inl ⟨rfl, rfl⟩
  | false =>
    cases hk : lowestKey (s.ku ^^^ s.kp) with
    | some k =>
      obtain ⟨-, hlt, hbit, -⟩ := lowestKeyFrom_some hk
      refine .inr (.inl ⟨BitVec.ofNat 4 k, rfl, rfl, ?_⟩)
      have hmod : k % 16 = k := Nat.mod_eq_of_lt (by omega)
      simpa [hmod] using hbit
    | none =>
      refine .inr (.inr ⟨rfl, rfl, fun k => ?_⟩)
      simpa using lowestKeyFrom_none hk k.toNat (Nat.zero_le _) (by simpa using k.isLt)

end Sys2Proof.Machine
end

