-- ==== Sys2Proof/Tests/Slice0.lean ====
section
/-! SUPPORT. The model's own tests: the smoke tests of the checks, words written out from the encodings, the spec's own
vectors (spec/95_test_vectors.md, whose ids stand in the comments), and a witness for the premises of each statement. -/

namespace Sys2Proof.Tests

open Sys2Proof.Machine

/-! ### Helpers -/

/-- A running state in its batch, `PC` = 0x200, every register 0, the Core's move next (spec/95 state conventions). -/
def base : State := { State.reset with run := .running, sched := .batch, batchLeft := 14 }

/-- `base` with some registers set. -/
def regs (l : List (Reg × Byte)) : State := l.foldl (fun s p => s.setV p.1 p.2) base

/-- A state with bytes put into memory. -/
def State.bytesAt (s : State) (a : Nat) (l : List Byte) : State := { s with mem := s.mem.writeBytes a l }

/-- A state under a changed configuration. -/
def State.under (s : State) (f : Config → Config) : State := { s with cfg := f s.cfg }

/-- Whether an outcome is a next state that passes a check. -/
def nextHas (o : Host.Outcome State Fault Refusal) (f : State → Bool) : Bool :=
  match o with
  | .next t => f t
  | .fault _ => false
  | .refused _ => false

/-! ### The checks refuse ill-formed terms -/

theorem test_source_wf : Source.wf .fault [.instr (.ldVxNn 0#4 5#8), .db 0#8, .db 1#8, .instr .cls] = true := by decide
theorem test_source_empty_refused : Source.wf .fault [] = false := by decide
theorem source_size_replicate (n : Nat) (w : Word) : Source.size (List.replicate n (.dw w)) = 2 * n := by
  induction n with
  | zero => rfl
  | succ n ih => simp only [List.replicate_succ, Source.size, ih, Item.size]; omega
theorem test_source_oversized_refused : Source.fits (List.replicate 0x701 (.dw 0#16)) = false ∧
    Source.fits (List.replicate 0x700 (.dw 0#16)) = true := by
  unfold Source.fits
  rw [source_size_replicate, source_size_replicate]
  decide
theorem test_source_odd_instruction_refused : Source.wf .fault [.db 0#8, .instr .cls] = false := by decide
theorem test_source_odd_instruction_allowed : Source.wf .allow [.db 0#8, .instr .cls] = true := by decide
theorem test_source_image : Source.image [.instr (.addVxVy 0#4 1#4), .db 7#8, .dw 0x1234#16] =
    [0x80#8, 0x14#8, 7#8, 0x12#8, 0x34#8] := by decide

/-- F6, F7 and the other clauses of R373. -/
theorem test_config_checks : configValid Config.reference = true ∧
    configValid { Config.reference with cyclesPerTick := 0 } = false ∧
    configValid { Config.reference with stackDepth := 0 } = false ∧
    configValid { Config.reference with cpuFreqHz := 0 } = false ∧
    configValid { Config.reference with timerHz := -1 } = false ∧
    configValid { Config.reference with fontBase := 0x1B1 } = false ∧
    configValid { Config.reference with fontBase := 0x1B0 } = true := by decide

theorem test_memory_wf_refuses : Memory.wf [(1, 1#8), (2, 2#8)] = true ∧ Memory.wf [(2, 1#8), (1, 2#8)] = false ∧
    Memory.wf [(1, 1#8), (1, 2#8)] = false ∧ Memory.wf [(1, 0#8)] = false ∧ Memory.wf [(0x1000, 1#8)] = false := by
  decide
theorem test_write_zero_removes : Memory.write [(1, 1#8), (2, 2#8)] 1 0#8 = [(2, 2#8)] ∧
    Memory.write [(1, 1#8), (3, 2#8)] 2 9#8 = [(1, 1#8), (2, 9#8), (3, 2#8)] := by decide

/-! ### Decoding: words written out bit by bit from R114 and spec/opcode_table.json -/

theorem test_decode_fixed : decodeWord 0b0000000011100000#16 = .ok .cls ∧ decodeWord 0b0000000011101110#16 = .ok .ret := by
  decide
theorem test_decode_address : decodeWord 0b0001101010111100#16 = .ok (.jpNnn 0xABC#12) ∧
    decodeWord 0b0010101010111100#16 = .ok (.callNnn 0xABC#12) ∧
    decodeWord 0b1010101010111100#16 = .ok (.ldINnn 0xABC#12) ∧
    decodeWord 0b1011101010111100#16 = .ok (.jpV0Nnn 0xABC#12) := by decide
theorem test_decode_register_byte : decodeWord 0b0011101010111100#16 = .ok (.seVxNn 0xA#4 0xBC#8) ∧
    decodeWord 0b0100101010111100#16 = .ok (.sneVxNn 0xA#4 0xBC#8) ∧
    decodeWord 0b0110101010111100#16 = .ok (.ldVxNn 0xA#4 0xBC#8) ∧
    decodeWord 0b0111101010111100#16 = .ok (.addVxNn 0xA#4 0xBC#8) ∧
    decodeWord 0b1100101010111100#16 = .ok (.rndVxNn 0xA#4 0xBC#8) := by decide
theorem test_decode_class5_class9 : decodeWord 0b0101101010110000#16 = .ok (.seVxVy 0xA#4 0xB#4) ∧
    decodeWord 0b1001101010110000#16 = .ok (.sneVxVy 0xA#4 0xB#4) ∧
    decodeWord 0b0101101010110001#16 = .reject .class5 ∧ decodeWord 0b1001101010111000#16 = .reject .class9 := by decide
theorem test_decode_class8 : decodeWord 0b1000101010110000#16 = .ok (.ldVxVy 0xA#4 0xB#4) ∧
    decodeWord 0b1000101010110001#16 = .ok (.orVxVy 0xA#4 0xB#4) ∧
    decodeWord 0b1000101010110010#16 = .ok (.andVxVy 0xA#4 0xB#4) ∧
    decodeWord 0b1000101010110011#16 = .ok (.xorVxVy 0xA#4 0xB#4) ∧
    decodeWord 0b1000101010110100#16 = .ok (.addVxVy 0xA#4 0xB#4) ∧
    decodeWord 0b1000101010110101#16 = .ok (.subVxVy 0xA#4 0xB#4) ∧
    decodeWord 0b1000101010110110#16 = .ok (.shrVxVy 0xA#4 0xB#4) ∧
    decodeWord 0b1000101010110111#16 = .ok (.subnVxVy 0xA#4 0xB#4) ∧
    decodeWord 0b1000101010111110#16 = .ok (.shlVxVy 0xA#4 0xB#4) ∧
    decodeWord 0b1000101010111000#16 = .reject .class8 ∧ decodeWord 0b1000101010111111#16 = .reject .class8 := by decide
theorem test_decode_draw : decodeWord 0b1101101010110101#16 = .ok (.drwVxVyN 0xA#4 0xB#4 5#4) := by decide
theorem test_decode_keys : decodeWord 0b1110101010011110#16 = .ok (.skpVx 0xA#4) ∧
    decodeWord 0b1110101010100001#16 = .ok (.sknpVx 0xA#4) ∧ decodeWord 0b1110101010011111#16 = .reject .classE := by
  decide
theorem test_decode_classF : decodeWord 0b1111101000000111#16 = .ok (.ldVxDt 0xA#4) ∧
    decodeWord 0b1111101000001010#16 = .ok (.ldVxK 0xA#4) ∧ decodeWord 0b1111101000010101#16 = .ok (.ldDtVx 0xA#4) ∧
    decodeWord 0b1111101000011000#16 = .ok (.ldStVx 0xA#4) ∧ decodeWord 0b1111101000011110#16 = .ok (.addIVx 0xA#4) ∧
    decodeWord 0b1111101000101001#16 = .ok (.ldFVx 0xA#4) ∧ decodeWord 0b1111101000110011#16 = .ok (.ldBVx 0xA#4) ∧
    decodeWord 0b1111101001010101#16 = .ok (.ldMemVx 0xA#4) ∧ decodeWord 0b1111101001100101#16 = .ok (.ldVxMem 0xA#4) ∧
    decodeWord 0b1111101001110101#16 = .reject .classF := by decide
theorem test_decode_bytes_big_endian : decode [0x60#8, 0x05#8, 0x61#8] = .ok (.ldVxNn 0#4 5#8, [0x61#8]) ∧
    decode [0x60#8] = .reject .truncated ∧ decode [0x01#8, 0x23#8] = .reject .class0 := by decide
theorem test_decodeTableWord : decodeTableWord 16 0x8014 = some (.addVxVy 0#4 1#4) ∧ decodeTableWord 16 0x5121 = none := by
  decide

/-! ### Load and arithmetic: spec/95 L2.1 -/

/-- A2, A3 -/
theorem test_addVxNn_no_flag : nextHas (exec (.addVxNn 3#4 5#8) (regs [(3#4, 0xFE#8)])) (fun t =>
      t.getV 3#4 == 0x03#8 && t.getV Reg.vf == 0#8 && t.pc == 0x202#16) = true ∧
    nextHas (exec (.addVxNn 0#4 1#8) (regs [(0#4, 0xFF#8), (0xF#4, 7#8)])) (fun t =>
      t.getV 0#4 == 0#8 && t.getV Reg.vf == 7#8) = true := by decide
/-- A1, A4 -/
theorem test_loads : nextHas (exec (.ldVxNn 0xF#4 0x12#8) base) (fun t => t.getV Reg.vf == 0x12#8) = true ∧
    nextHas (exec (.ldVxVy 1#4 2#4) (regs [(2#4, 0x7A#8)])) (fun t => t.getV 1#4 == 0x7A#8) = true := by decide
/-- A5, A6 with both values of `LOGIC_VF_RESET` -/
theorem test_or_flag : nextHas (exec (.orVxVy 0#4 1#4) (regs [(0#4, 0x0F#8), (1#4, 0xF0#8), (0xF#4, 1#8)])) (fun t =>
      t.getV 0#4 == 0xFF#8 && t.getV Reg.vf == 0#8) = true ∧
    nextHas (exec (.orVxVy 0xF#4 1#4) (State.under (regs [(0xF#4, 3#8), (1#4, 0x10#8)])
      (fun c => { c with logicVfReset := .off }))) (fun t => t.getV Reg.vf == 0x13#8) = true := by decide
/-- A7, A8 -/
theorem test_and_xor : nextHas (exec (.andVxVy 0#4 1#4) (regs [(0#4, 0x3C#8), (1#4, 0x0F#8)])) (fun t =>
      t.getV 0#4 == 0x0C#8 && t.getV Reg.vf == 0#8) = true ∧
    nextHas (exec (.xorVxVy 0#4 1#4) (regs [(0#4, 0xFF#8), (1#4, 0x0F#8)])) (fun t =>
      t.getV 0#4 == 0xF0#8 && t.getV Reg.vf == 0#8) = true := by decide
/-- A11, A12 -/
theorem test_add_flag_last : nextHas (exec (.addVxVy 0xF#4 1#4) (regs [(0xF#4, 0xFF#8), (1#4, 1#8)])) (fun t =>
      t.getV Reg.vf == 1#8) = true ∧
    nextHas (exec (.addVxVy 0#4 0xF#4) (regs [(0#4, 0x10#8), (0xF#4, 0xF0#8)])) (fun t =>
      t.getV 0#4 == 0#8 && t.getV Reg.vf == 1#8) = true := by decide
/-- A14, A15 -/
theorem test_sub_not_borrow : nextHas (exec (.subVxVy 0#4 1#4) (regs [(0#4, 5#8), (1#4, 7#8)])) (fun t =>
      t.getV 0#4 == 0xFE#8 && t.getV Reg.vf == 0#8) = true ∧
    nextHas (exec (.subVxVy 0#4 1#4) (regs [(0#4, 7#8), (1#4, 7#8)])) (fun t =>
      t.getV 0#4 == 0#8 && t.getV Reg.vf == 1#8) = true := by decide
/-- A21, A22 -/
theorem test_subn_not_borrow : nextHas (exec (.subnVxVy 0#4 1#4) (regs [(0#4, 7#8), (1#4, 5#8)])) (fun t =>
      t.getV 0#4 == 0xFE#8 && t.getV Reg.vf == 0#8) = true ∧
    nextHas (exec (.subnVxVy 0#4 1#4) (regs [(0#4, 5#8), (1#4, 7#8)])) (fun t =>
      t.getV 0#4 == 2#8 && t.getV Reg.vf == 1#8) = true := by decide
/-- A18, A19 -/
theorem test_shr_source : nextHas (exec (.shrVxVy 0#4 1#4) (regs [(1#4, 5#8)])) (fun t =>
      t.getV 0#4 == 2#8 && t.getV Reg.vf == 1#8 && t.getV 1#4 == 5#8) = true ∧
    nextHas (exec (.shrVxVy 0#4 1#4) (State.under (regs [(0#4, 4#8), (1#4, 5#8)]) (fun c => { c with shiftSrc := .vx })))
      (fun t => t.getV 0#4 == 2#8 && t.getV Reg.vf == 0#8) = true := by decide
/-- A23, A24 -/
theorem test_shl_bit7 : nextHas (exec (.shlVxVy 0#4 1#4) (regs [(1#4, 0x81#8)])) (fun t =>
      t.getV 0#4 == 2#8 && t.getV Reg.vf == 1#8) = true ∧
    nextHas (exec (.shlVxVy 0#4 1#4) (regs [(1#4, 0x40#8)])) (fun t =>
      t.getV 0#4 == 0x80#8 && t.getV Reg.vf == 0#8) = true := by decide

/-! ### Control flow: spec/95 L2.2 -/

/-- B1, B3, B4, B8 -/
theorem test_skips : nextHas (exec (.seVxNn 0#4 5#8) (regs [(0#4, 5#8)])) (fun t => t.pc == 0x204#16) = true ∧
    nextHas (exec (.sneVxNn 0#4 5#8) (regs [(0#4, 6#8)])) (fun t => t.pc == 0x204#16) = true ∧
    nextHas (exec (.seVxVy 1#4 2#4) (regs [(1#4, 0x10#8), (2#4, 0x10#8)])) (fun t => t.pc == 0x204#16) = true ∧
    nextHas (exec (.sneVxVy 3#4 3#4) (regs [(3#4, 3#8)])) (fun t => t.pc == 0x202#16) = true := by decide
/-- B11, B14, B15 -/
theorem test_jumps : nextHas (exec (.jpNnn 0x208#12) base) (fun t => t.pc == 0x208#16) = true ∧
    nextHas (exec (.jpV0Nnn 0x300#12) (State.under (regs [(0#4, 4#8), (3#4, 0x10#8)])
      (fun c => { c with jumpOffsetReg := .vx }))) (fun t => t.pc == 0x310#16) = true ∧
    nextHas (exec (.jpV0Nnn 0xFFF#12) (regs [(0#4, 0xFF#8)])) (fun t => t.pc == 0x10FE#16) = true := by decide
/-- B17, B18 -/
theorem test_call : nextHas (exec (.callNnn 0x206#12) base) (fun t =>
      t.stackAt 0 == 0x202#16 && t.sp == 1 && t.pc == 0x206#16) = true ∧
    nextHas (step (State.bytesAt { base with sp := 16 } 0x200 [0x22#8, 0x06#8])) (fun t =>
      t.fault == ⟨.stackOverflow, 0x200#16, 0x2206#16, 0#17⟩ && t.sp == 16 && t.pc == 0x200#16 &&
      t.statusWord == 0x002A#16) = true := by decide
/-- B20, B21 -/
theorem test_ret : nextHas (exec .ret ({ (base.push 0x202#16) with pc := 0x206#16 })) (fun t =>
      t.sp == 0 && t.pc == 0x202#16 && t.stackAt 0 == 0x202#16) = true ∧
    nextHas (step (State.bytesAt base 0x200 [0x00#8, 0xEE#8])) (fun t =>
      t.fault == ⟨.stackUnderflow, 0x200#16, 0x00EE#16, 0#17⟩ && t.pc == 0x200#16) = true := by decide
/-- B5, B6 -/
theorem test_invalid_opcode : nextHas (step (State.bytesAt base 0x200 [0x51#8, 0x21#8])) (fun t =>
      t.fault == ⟨.invalidOpcode, 0x200#16, 0x5121#16, 0#17⟩ && t.pc == 0x200#16 && t.statusWord == 0x004A#16) = true ∧
    nextHas (step (State.under (State.bytesAt base 0x200 [0x51#8, 0x21#8]) (fun c => { c with invalidOpcode := .skip })))
      (fun t => t.pc == 0x202#16 && t.invalidSeen && t.statusWord == 0x0081#16) = true := by decide
/-- B12, B13, F2 -/
theorem test_fetch_faults : nextHas (interpStep { base with pc := 0xABD#16 }) (fun t =>
      t.fault == ⟨.memoryOutOfBounds, 0xABD#16, 0#16, 0xABD#17⟩) = true ∧
    nextHas (interpStep { base with pc := 0xFFF#16 }) (fun t =>
      t.fault == ⟨.memoryOutOfBounds, 0xFFF#16, 0#16, 0x1000#17⟩) = true ∧
    nextHas (interpStep { base with pc := 0x1000#16 }) (fun t =>
      t.fault == ⟨.memoryOutOfBounds, 0x1000#16, 0#16, 0x1000#17⟩ && t.pc == 0x1000#16) = true := by decide
/-- F1; B12 under `ODD_PC_POLICY` = ALLOW -/
theorem test_fetch_edges : nextHas (interpStep (State.bytesAt { base with pc := 0xFFE#16 } 0xFFE [0x12#8, 0x00#8]))
      (fun t => t.pc == 0x200#16) = true ∧
    nextHas (interpStep (State.under (State.bytesAt { base with pc := 0xABD#16 } 0xABD [0x60#8, 0x05#8])
      (fun c => { c with oddPc := .allow }))) (fun t => t.getV 0#4 == 5#8 && t.pc == 0xABF#16) = true := by decide

/-! ### Display: spec/95 L2.3 -/

/-- C1 -/
theorem test_cls : nextHas (exec .cls { (regs [(0xF#4, 0x55#8)]) with fb := Vector.replicate 32 0xFF#64 }) (fun t =>
    Frame.pixel t.fb 3 4 == false && t.getV Reg.vf == 0x55#8) = true := by decide
/-- C4, C7 -/
theorem test_draw_wrap_collision : nextHas (exec (.drwVxVyN 0#4 1#4 1#4)
      (State.bytesAt { (regs [(0#4, 0x3E#8)]) with i := 0x300#16 } 0x300 [0xFF#8])) (fun t =>
      Frame.snapshotByte t.fb 0 == 0xFC#8 && Frame.snapshotByte t.fb 7 == 0x03#8 && t.getV Reg.vf == 0#8) = true ∧
    nextHas (exec (.drwVxVyN 0#4 1#4 1#4) (State.bytesAt { base with i := 0x300#16, fb := Frame.toggle Frame.blank 3 0 }
      0x300 [0x30#8])) (fun t => Frame.pixel t.fb 2 0 && !Frame.pixel t.fb 3 0 && t.getV Reg.vf == 1#8) = true := by decide
/-- C9, C11, C5 -/
theorem test_draw_faults : nextHas (exec (.drwVxVyN 0#4 1#4 3#4) { base with i := 0xFFE#16 }) (fun t =>
      t.fault.code == .memoryOutOfBounds && t.fault.addr == 0x1000#17 && t.fb == base.fb) = true ∧
    nextHas (exec (.drwVxVyN 0#4 1#4 1#4) { base with i := 0x1005#16 }) (fun t => t.fault.addr == 0x1005#17) = true := by
  decide

/-! ### Keys and timers: spec/95 L2.4 -/

/-- D3, D4 -/
theorem test_key_tests : nextHas (exec (.skpVx 5#4) { (regs [(5#4, 0x1A#8)]) with kp := 0x0400#16 }) (fun t =>
      t.pc == 0x204#16) = true ∧
    nextHas (exec (.sknpVx 5#4) (regs [(5#4, 0x0A#8)])) (fun t => t.pc == 0x204#16) = true := by decide
/-- D6, D8 -/
theorem test_key_wait : nextHas (exec (.ldVxK 3#4) base) (fun t =>
      t.wait == ⟨true, 3#4, 0#16⟩ && t.pc == 0x202#16 && stepReport base t == .waiting) = true ∧
    nextHas (interpStep { base with wait := ⟨true, 3#4, 0#16⟩, kp := 0x0208#16 }) (fun t =>
      t.getV 3#4 == 3#8 && !t.wait.active && t.pc == 0x200#16) = true := by decide
/-- D9, D10 under PRESS_EDGE -/
theorem test_key_wait_edge :
    nextHas (interpStep (State.under { base with wait := ⟨true, 3#4, 0x0200#16⟩, kp := 0x0200#16 }
      (fun c => { c with keywaitMode := .pressEdge }))) (fun t => t.wait == ⟨true, 3#4, 0x0200#16⟩) = true ∧
    nextHas (interpStep (State.under { base with wait := ⟨true, 3#4, 0#16⟩, kp := 0x0200#16 }
      (fun c => { c with keywaitMode := .pressEdge }))) (fun t => t.getV 3#4 == 9#8 && !t.wait.active) = true := by decide
/-- D12, D13, D14 -/
theorem test_timer_instructions : nextHas (exec (.ldVxDt 2#4) { base with dt := 0x3C#8 }) (fun t =>
      t.getV 2#4 == 0x3C#8) = true ∧
    nextHas (exec (.ldDtVx 2#4) (regs [(2#4, 0x3C#8)])) (fun t => t.dt == 0x3C#8) = true ∧
    nextHas (exec (.ldStVx 2#4) (regs [(2#4, 5#8)])) (fun t =>
      t.st == 5#8 && t.soundActive && t.statusWord == 0x0101#16) = true := by decide
/-- D15, D17, D20 -/
theorem test_timer_phase : (({ base with dt := 5#8, st := 1#8, timerPending := 3#8 } : State).timerPhase.dt == 2#8 &&
      ({ base with dt := 5#8, st := 1#8, timerPending := 3#8 } : State).timerPhase.st == 0#8) = true ∧
    (strobeMove { base with timerPending := 255#8 }).timerPending = 255#8 ∧
    (strobeMove { base with sched := .exit, run := .halted }).timerPending = 0#8 := by decide

/-! ### BCD, random, index, font, blocks: spec/95 L2.5 -/

/-- E1, E5 -/
theorem test_bcd : nextHas (exec (.ldBVx 4#4) { (regs [(4#4, 0x9C#8)]) with i := 0x300#16 }) (fun t =>
      t.readByte 0x300 == 1#8 && t.readByte 0x301 == 5#8 && t.readByte 0x302 == 6#8 && t.i == 0x300#16) = true ∧
    nextHas (exec (.ldBVx 4#4) { base with i := 0xFFE#16 }) (fun t =>
      t.fault.addr == 0x1000#17 && t.mem == base.mem) = true := by decide
/-- E6 -/
theorem test_rnd : nextHas (exec (.rndVxNn 0#4 0x0F#8) { base with env := ⟨[], [0xA7#8, 1#8], 0⟩ }) (fun t =>
    t.getV 0#4 == 7#8 && t.env.answers == [1#8]) = true := by decide
/-- E8, E11 -/
theorem test_index : nextHas (exec (.ldINnn 0x300#12) base) (fun t => t.i == 0x300#16) = true ∧
    nextHas (exec (.addIVx 1#4) (State.under { (regs [(1#4, 1#8)]) with i := 0xFFFF#16 }
      (fun c => { c with fx1eVf := .overflowFff }))) (fun t => t.i == 0#16 && t.getV Reg.vf == 1#8) = true := by decide
/-- E12, E13 -/
theorem test_font_address : nextHas (exec (.ldFVx 2#4) (State.under (regs [(2#4, 0x0A#8)])
      (fun c => { c with fontBase := 0x050 }))) (fun t => t.i == 0x082#16) = true ∧
    nextHas (exec (.ldFVx 2#4) (regs [(2#4, 0x1F#8)])) (fun t => t.i == 0x04B#16) = true := by decide
/-- E15, E17 -/
theorem test_block_store : nextHas (exec (.ldMemVx 2#4) { (regs [(0#4, 1#8), (1#4, 2#8), (2#4, 3#8)]) with i := 0x300#16 })
      (fun t => t.mem == [(0x300, 1#8), (0x301, 2#8), (0x302, 3#8)] && t.i == 0x303#16) = true ∧
    nextHas (exec (.ldMemVx 1#4) { base with i := 0xFFF#16 }) (fun t =>
      t.fault.addr == 0x1000#17 && t.i == 0xFFF#16) = true := by decide
/-- E19, E18 -/
theorem test_block_load : nextHas (exec (.ldVxMem 1#4) (State.bytesAt { base with i := 0x300#16 } 0x300 [0xAA#8, 0xBB#8]))
      (fun t => t.getV 0#4 == 0xAA#8 && t.getV 1#4 == 0xBB#8 && t.i == 0x302#16) = true ∧
    nextHas (exec (.ldVxMem 0#4) { base with i := 0x1000#16 }) (fun t => t.fault.addr == 0x1000#17) = true := by decide

/-! ### Load, reset and status: spec/95 L2.6 -/

/-- A reset machine about to be given an image. -/
def loading (image : List Byte) : State := { State.reset with env := ⟨[.load image], [], 0⟩ }

/-- F3 -/
theorem test_reset_status : State.reset.statusWord = 0#16 ∧
    nextHas (step State.reset) (fun t => t.run == .unloaded && t.pc == 0x200#16) = true := by decide
/-- F4, E14 -/
theorem test_load : nextHas (step (loading [0x12#8, 0x00#8])) (fun t => t.statusWord == 1#16 &&
    t.readByte 0x200 == 0x12#8 && t.readByte 0x202 == 0#8 && t.readByte 0 == 0xF0#8 && t.readByte 0x04F == 0x80#8 &&
    t.readByte 0x04E == 0x80#8 && t.readByte 0x04B == 0xF0#8) = true := by decide
/-- S10 -/
theorem test_load_replies : loadReply Config.reference [] = .empty ∧
    (∀ image : List Byte, image.length = 0xE01 → loadReply Config.reference image = .oversized) ∧
    (∀ image : List Byte, image.length = 0xE00 → loadReply Config.reference image = .ok) := by
  have hv : configValid Config.reference = true := by decide
  refine ⟨by decide, fun image h => ?_, fun image h => ?_⟩ <;> simp [loadReply, hv, h]
/-- S9 -/
theorem test_trip_in_sleep : nextHas (step { base with sched := .sleep, batchLeft := 0, fuse := true, env := ⟨[.tick], [], 0⟩ }) (fun t =>
    t.sched == .exit && t.run == .halted && t.statusWord == 0x000A#16) = true := by decide
/-- The host's placing of a word, and its running as the first instruction. -/
theorem test_withFetchWord : nextHas (step (State.reset.withFetchWord 16 0x6005)) (fun t =>
    t.getV 0#4 == 5#8 && t.pc == 0x202#16 && t.run == .running) = true := by decide

/-! ### Witnesses: states and operands that meet the premises of the statements -/

/-- True sums 255 and 256. -/
theorem witness_AddSetsCarry : (0#4 ≠ Reg.vf) ∧
    ((regs [(0#4, 0xFE#8), (1#4, 1#8)]).getV 0#4).toNat + ((regs [(0#4, 0xFE#8), (1#4, 1#8)]).getV 1#4).toNat ≤ 255 ∧
    255 < ((regs [(0#4, 0xFF#8), (1#4, 1#8)]).getV 0#4).toNat + ((regs [(0#4, 0xFF#8), (1#4, 1#8)]).getV 1#4).toNat := by
  decide
/-- Equal operands, and operands one apart in each direction. -/
theorem witness_SubtractionsSetNotBorrow :
    (base.getV 1#4).toNat ≤ (base.getV 0#4).toNat ∧ (base.getV 0#4).toNat ≤ (base.getV 1#4).toNat ∧
    ((regs [(1#4, 1#8)]).getV 0#4).toNat < ((regs [(1#4, 1#8)]).getV 1#4).toNat ∧
    ((regs [(0#4, 1#8)]).getV 1#4).toNat < ((regs [(0#4, 1#8)]).getV 0#4).toNat := by decide
theorem witness_ShiftsMoveOneBitOut : (base.cfg.shiftSrc = .vy ∧ 5 = ((regs [(1#4, 5#8)]).getV 1#4).toNat) ∧
    ((State.under base (fun c => { c with shiftSrc := .vx })).cfg.shiftSrc = .vx ∧
      4 = ((regs [(0#4, 4#8)]).getV 0#4).toNat) := by decide
theorem witness_CallPushesOrOverflows : (base.stack.length = base.cfg.stackDepth ∧ base.sp < base.cfg.stackDepth) ∧
    ({ base with sp := 15 } : State).sp < base.cfg.stackDepth ∧
    ({ base with sp := 16 } : State).sp = base.cfg.stackDepth := by decide
theorem witness_ReturnPopsOrUnderflows : 0 < (base.push 0x202#16).sp ∧ base.sp = 0 := by decide
theorem witness_ReturnPopsOrUnderflows_roundTrip : base.stack.length = base.cfg.stackDepth ∧ base.sp < base.cfg.stackDepth ∧
    exec (.callNnn 0x206#12) base = .next ((base.push base.nextPc).setPc (addrOf 0x206#12)) :=
  ⟨by decide, by decide, rfl⟩
theorem witness_DrawTogglesTheSprite : (({ base with i := 0xFFE#16 } : State).i.toNat + (2#4).toNat ≤ 0x1000) ∧
    ((0#4).toNat = 0) ∧
    (0 < (3#4).toNat ∧ 0x1000 < ({ base with i := 0xFFE#16 } : State).i.toNat + (3#4).toNat) ∧
    (State.bytesAt { base with i := 0x300#16 } 0x300 [0x80#8]).spriteToggles 0#4 1#4 1#4 0 0 ∧
    ¬base.spriteToggles 0#4 1#4 0#4 0 0 :=
  ⟨by decide, by decide, by decide, ⟨0, by decide, 0, by decide, by decide, by decide, by decide⟩,
    fun ⟨_, h, _⟩ => absurd h (Nat.not_lt_zero _)⟩
theorem witness_DrawTwiceRestoresTheFrame : (base.i.toNat + (1#4).toNat ≤ 0x1000) ∧
    nextHas (exec (.drwVxVyN 0#4 1#4 1#4) base) (fun t => (t.getV 0#4).toNat % 64 == (base.getV 0#4).toNat % 64 &&
      (t.getV 1#4).toNat % 32 == (base.getV 1#4).toNat % 32) = true := by decide
theorem witness_KeyWaitPoll : base.run = .running ∧ (⟨true, 3#4, 0#16⟩ : KeyWait).active = true ∧
    ({ base with kp := 0x8000#16 } : State).canComplete 15 ∧ (∀ j, j < 15 → ¬({ base with kp := 0x8000#16 } : State).canComplete j) ∧
    (∀ k, k < 16 → ¬base.canComplete k) := by
  refine ⟨by decide, rfl, ⟨by decide, fun h => absurd h (by decide)⟩, fun j hj h => ?_, fun k hk h => ?_⟩
  · exact absurd h.1 ((by decide : ∀ j, j < 15 → ¬(0x8000#16).getLsbD j = true) j hj)
  · exact absurd h.1 ((by decide : ∀ k, k < 16 → ¬(0#16).getLsbD k = true) k hk)
theorem witness_BcdStoresThreeDigits : Memory.wf base.mem = true ∧ ({ base with i := 0xFFD#16 } : State).i.toNat + 3 ≤ 0x1000 ∧
    0x1000 < ({ base with i := 0xFFE#16 } : State).i.toNat + 3 := by decide
theorem witness_RandomLoadsOneMaskedDraw : ({ base with env := ⟨[], [0xA7#8], 0⟩ } : State).env.answers = 0xA7#8 :: [] ∧
    base.env.answers = [] := by decide
theorem witness_BlockTransfers : Memory.wf base.mem = true ∧
    ({ base with i := 0xFF0#16 } : State).i.toNat + (0xF#4).toNat < 0x1000 ∧
    0x1000 ≤ ({ base with i := 0xFF1#16 } : State).i.toNat + (0xF#4).toNat ∧ base.cfg.ldstIMode = .incXPlus1 ∧
    (State.under base (fun c => { c with ldstIMode := .incX })).cfg.ldstIMode = .incX ∧
    (State.under base (fun c => { c with ldstIMode := .unchanged })).cfg.ldstIMode = .unchanged := by decide
/-- E21: the block store that overwrites the next instruction. -/
theorem witness_StoredWordIsTheNextFetched : Memory.wf ({ (regs [(0#4, 0x12#8), (1#4, 8#8)]) with i := 0x202#16 }).mem = true ∧
    nextHas (exec (.ldMemVx 2#4) { (regs [(0#4, 0x12#8), (1#4, 8#8)]) with i := 0x202#16 }) (fun t =>
      t.pc.toNat == 0x202 + (0#4).toNat && t.fetchedWord == 0x1208#16) = true ∧ (1#4).toNat = (0#4).toNat + 1 ∧
    (1#4).toNat ≤ (2#4).toNat := by decide
theorem witness_FetchFaultsInOrder : base.run = .running ∧ base.wait.active = false ∧ 0xFFF < (0x1000#16).toNat ∧
    (0xFFF#16).toNat = 0xFFF ∧ ((0xFFD#16).toNat < 0xFFF ∧ (0xFFD#16).toNat % 2 = 1 ∧ base.cfg.oddPc = .fault) ∧
    ((0xFFE#16).toNat < 0xFFF ∧ (0xFFE#16).toNat % 2 = 0) ∧
    decodeWord ((State.bytesAt base 0x200 [0x60#8, 5#8]).readByte 0x200 ++
      (State.bytesAt base 0x200 [0x60#8, 5#8]).readByte 0x201 : Word) = .ok (.ldVxNn 0#4 5#8) := by decide
theorem witness_InvalidWordFollowsThePolicy : base.run = .running ∧ base.wait.active = false ∧ base.fetchFault = none ∧
    decodeWord base.fetchedWord = .reject .class0 ∧ base.cfg.invalidOpcode = .fatal ∧
    (State.under base (fun c => { c with invalidOpcode := .skip })).cfg.invalidOpcode = .skip := by decide
theorem witness_FaultsArePrecise : base.run = .running ∧ nextHas (interpStep base) (fun t => t.run != .running) = true := by
  decide
theorem witness_OnlyListedInstructionsFault : base.run = .running ∧
    nextHas (exec .ret base) (fun t => t.run != .running) = true ∧
    nextHas (exec (.callNnn 0#12) { base with sp := 16 }) (fun t => t.run != .running) = true ∧
    nextHas (exec (.ldBVx 0#4) { base with i := 0xFFF#16 }) (fun t => t.run != .running) = true := by decide
/-- A running state that fetches `60 05` next. -/
theorem witness_FetchesNext : (State.bytesAt base 0x200 [0x60#8, 5#8]).FetchesNext ∧
    decode (State.bytesAt base 0x200 [0x60#8, 5#8]).fetchBytes = .ok (.ldVxNn 0#4 5#8, []) ∧
    exec (.ldVxNn 0#4 5#8) (State.bytesAt base 0x200 [0x60#8, 5#8]).dropMove =
      .next ((State.bytesAt base 0x200 [0x60#8, 5#8]).dropMove.advance.setV 0#4 5#8) :=
  ⟨⟨by decide, by decide, by decide, by decide, by decide⟩, by decide, rfl⟩
/-- A running state whose next instruction, `00EE` with an empty stack, faults. -/
theorem witness_FetchesNext_fault : (State.bytesAt base 0x200 [0#8, 0xEE#8]).FetchesNext ∧
    decode (State.bytesAt base 0x200 [0#8, 0xEE#8]).fetchBytes = .ok (.ret, []) ∧
    nextHas (exec .ret (State.bytesAt base 0x200 [0#8, 0xEE#8]).dropMove) (fun t => t.run != .running) = true :=
  ⟨⟨by decide, by decide, by decide, by decide, by decide⟩, by decide, by decide⟩
theorem witness_EncodeOfDecodeIsTheWord : decodeWord 0x6005#16 = .ok (.ldVxNn 0#4 5#8) := by decide
theorem witness_ValidWordsMatchExactlyOneRow : (⟨0x6000#16, 0xF000#16⟩ : OpcodeRow) ∈ opcodeTable ∧
    (⟨0x6000#16, 0xF000#16⟩ : OpcodeRow).matchesWord 0x6005#16 = true := by decide

/-- A state in SLEEP with a tick listed. -/
def ticking : State := { base with sched := .sleep, batchLeft := 0, env := ⟨[.tick], [], 0⟩ }
/-- One state for each row of the Scheduler's table (R320); with `BATCH_LEFT` = 1 the batch ends, with 2 it goes on. -/
theorem witness_SchedulerFollowsItsTable :
    (ticking.nextMove = .tick ∧ ticking.run ≠ .unloaded ∧ ticking.fuse = false) ∧
    ({ ticking with fuse := true } : State).nextMove = .tick ∧
    ({ base with sched := .sleep, env := ⟨[.core], [], 0⟩ } : State).nextMove = .core ∧
    (base.sched = .batch ∧ base.nextMove = .core ∧ nextHas (interpStep base.dropMove) (fun u =>
      stepReport base u == .faulted .invalidOpcode) = true) ∧
    nextHas (interpStep (State.bytesAt base 0x200 [0x60#8, 5#8]).dropMove) (fun u => stepReport base u == .ok) = true ∧
    nextHas (step { (State.bytesAt base 0x200 [0x60#8, 5#8]) with batchLeft := 1 }) (fun t =>
      t.sched == .timer && t.batchLeft == 0) = true ∧
    nextHas (step { (State.bytesAt base 0x200 [0x60#8, 5#8]) with batchLeft := 2 }) (fun t =>
      t.sched == .batch && t.batchLeft == 1) = true ∧
    ({ base with sched := .timer } : State).nextMove = .core ∧ ({ base with sched := .exit } : State).nextMove = .core := by
  decide
theorem witness_SchedulerFollowsItsTable_noRow :
    ({ base with env := ⟨[.tick], [], 0⟩ } : State).nextMove = .tick ∧ base.sched = .batch ∧
    ({ State.reset with env := ⟨[.tick], [], 0⟩ } : State).nextMove = .tick ∧ State.reset.run = .unloaded ∧
    ({ base with env := ⟨[.trip], [], 0⟩ } : State).nextMove = .trip := by decide
theorem witness_MovesNotEnabledChangeNothing :
    Move.enabled .tick base = false ∧ Move.enabled .core ticking = false ∧ Move.enabled .timerTick State.reset = false ∧
    Move.enabled (.inputSync 0#4) base = false ∧ Move.enabled .snapCapture base = false ∧
    Move.enabled (.configure Config.reference) base = false ∧ Move.enabled (.load [1#8]) base = false ∧
    Move.enabled .reset base = false := by decide
theorem witness_TimerPhaseAppliesEveryStrobe : base.run = .running ∧ base.sched ≠ .exit ∧
    ({ base with env := ⟨[.timerTick], [], 0⟩ } : State).nextMove = .timerTick ∧
    ({ State.reset with env := ⟨[.timerTick], [], 0⟩ } : State).nextMove = .timerTick ∧ State.reset.run ≠ .running := by
  decide

/-- A state in the middle of a batch is legal. -/
theorem base_inv : base.Inv where
  memory := rfl
  stackLength := rfl
  stackBound := by decide
  returnAddresses := by
    intro w hw
    rw [List.eq_of_mem_replicate (show w ∈ List.replicate 16 0#16 from hw)]
    decide
  pcBound := by decide
  unloaded h := by cases h
  configured _ := by decide
  halted := ⟨fun h => by (cases h), fun h => by (cases h)⟩
  exitFuse h := by cases h
  batchBound := by decide
  batchOpen _ := by decide
  batchClosed h := by rcases h with h | h <;> cases h
  faultHalts h := absurd rfl h
  noFault _ := rfl
  faultAddr _ := rfl
  invalidPolicy h := by cases h
/-- A run whose Fuse has been tripped in its batch, with no outside move listed. -/
def tripped : State := base.trip
theorem tripped_inv : tripped.Inv := { base_inv with exitFuse := fun _ => rfl }
/-- A run that has ended by a trip. -/
def ended : State := { base with run := .halted, sched := .exit, fuse := true }
theorem ended_inv : ended.Inv := { base_inv with
  unloaded := fun h => by cases h
  configured := fun _ => by decide
  halted := ⟨fun _ => rfl, fun _ => rfl⟩
  exitFuse := fun _ => rfl
  batchOpen := fun h => by cases h
  batchClosed := fun h => by rcases h with h | h <;> cases h
  faultHalts := fun h => absurd rfl h }
theorem witness_EveryStepKeepsTheInvariant : base.Inv ∧ nextHas (step base) (fun t => t.sched == .exit) = true :=
  ⟨base_inv, by decide⟩
theorem witness_ExitIsTerminal : ended.Inv ∧ ended.sched = .exit ∧ ended.nextMove ≠ .reset ∧
    step ended = .next ended.dropMove := ⟨ended_inv, by decide, by decide, rfl⟩
theorem witness_TripEndsTheRun : tripped.Inv ∧ tripped.run ≠ .unloaded ∧ tripped.fuse = true ∧
    tripped.env.agenda = [] ∧ tripped.nextMove ≠ .reset ∧ tripped.coreStepNext :=
  ⟨tripped_inv, by decide, by decide, by decide, by decide, .inl ⟨by decide, .inl (by decide)⟩⟩
/-- A tripped run in SLEEP, where the next move is the tick that sees the Fuse, and the states after it. -/
def sleepingTripped : State := { base with sched := .sleep, batchLeft := 0, fuse := true, timerPending := 1#8 }
def endingRun : Nat → State
  | 0 => sleepingTripped
  | _ + 1 => sleepingTripped.exitRun
theorem exited_nextMove : State.nextMove sleepingTripped.exitRun = .core := by decide
theorem endingRun_runsByItself : runsByItself endingRun
  | 0 => rfl
  | _ + 1 => by
    show step sleepingTripped.exitRun = .next sleepingTripped.exitRun
    rw [step_of_nextMove exited_nextMove]
    rfl
theorem endingRun_runsUnder : runsUnder (ownSchedule endingRun) endingRun
  | 0 => rfl
  | n + 1 => by
    rw [step_scheduleFirst, show ownSchedule endingRun (n + 1) = .core from exited_nextMove]
    rfl
theorem endingRun_fair : fair (ownSchedule endingRun) endingRun :=
  fair_of_quiet 1 fun
    | 0, h => absurd h (by decide)
    | _ + 1, _ => State.quiet_of rfl rfl rfl rfl rfl
theorem sleepingTripped_inv : sleepingTripped.Inv := { base_inv with
  unloaded := fun h => by cases h
  halted := ⟨fun h => by (cases h), fun h => by (cases h)⟩
  exitFuse := fun _ => rfl
  batchBound := by decide
  batchOpen := fun h => by cases h
  batchClosed := fun _ => rfl }
theorem witness_FairRunsEndAfterATrip : (endingRun 0).Inv ∧ (endingRun 0).run ≠ .unloaded ∧ (endingRun 0).fuse = true ∧
    (endingRun 0).sched ≠ .exit ∧ (endingRun 1).sched = .exit := ⟨sleepingTripped_inv, by decide⟩
/-- A request is captured, then key 0 is copied, then nothing is enabled. -/
def crossing : State := { State.reset with snapReq := true, ku := 1#16 }
def crossingRun : Nat → State
  | 0 => crossing
  | 1 => snapCaptureMove crossing
  | _ + 2 => inputSyncMove 0#4 (snapCaptureMove crossing)
def crossingSchedule : Schedule
  | 0 => .snapCapture
  | 1 => .inputSync 0#4
  | _ + 2 => .tick
theorem crossingRun_runsUnder : runsUnder crossingSchedule crossingRun
  | 0 => rfl
  | 1 => rfl
  | _ + 2 => rfl
theorem crossingRun_fair : fair crossingSchedule crossingRun :=
  fair_of_quiet 2 fun
    | 0, h => absurd h (by decide)
    | 1, h => absurd h (by decide)
    | _ + 2, _ => State.quiet_of rfl rfl rfl rfl (show withKeyBit 0#16 0#4 (keyBit 1#16 0#4) = 1#16 by decide)
theorem witness_FairRunsCompleteEveryCrossing : (∀ n, crossingSchedule n ≠ .reset) ∧ (crossingRun 0).snapReq = true ∧
    (crossingRun 0).kp.getLsbD (0#4).toNat ≠ (crossingRun 0).ku.getLsbD (0#4).toNat ∧
    (∀ k, 0 ≤ k → (crossingRun k).ku.getLsbD (0#4).toNat = (crossingRun 0).ku.getLsbD (0#4).toNat) :=
  ⟨fun n => (match n with
    | 0 => nofun
    | 1 => nofun
    | _ + 2 => nofun), by decide, by decide, fun k _ => (match k with
    | 0 => rfl
    | 1 => rfl
    | _ + 2 => rfl)⟩
theorem witness_FuseStaysTripped : ({ base with env := ⟨[.trip], [], 0⟩ } : State).nextMove = .trip ∧
    tripped.fuse = true ∧ nextHas (step tripped) (fun t => t.fuse) = true ∧
    ({ ended with env := ⟨[.reset], [], 0⟩ } : State).nextMove = .reset := by decide
theorem witness_KeysCrossOneBitAtATime : ({ base with env := ⟨[.setKey 15#4 true], [], 0⟩ } : State).nextMove = .setKey 15#4 true ∧
    ({ base with env := ⟨[.inputSync 0#4], [], 0⟩ } : State).nextMove = .inputSync 0#4 ∧ base.nextMove ≠ .reset ∧
    nextHas (step { base with env := ⟨[.setKey 15#4 true], [], 0⟩ }) (fun t => t.ku == 0x8000#16) = true := by decide
theorem witness_SnapshotIsOneWholeFrame :
    ({ base with env := ⟨[.snapshotRequest], [], 0⟩ } : State).nextMove = .snapshotRequest ∧
    ({ base with env := ⟨[.snapCapture], [], 0⟩, snapReq := true } : State).nextMove = .snapCapture ∧ base.snapReq = false ∧
    base.nextMove ≠ .snapshotRequest ∧ base.nextMove ≠ .snapCapture := by decide
theorem witness_OnlyLoadAndInstructionsWriteMemory :
    nextHas (step (State.bytesAt { (regs [(0#4, 1#8)]) with i := 0x300#16 } 0x200 [0xF0#8, 0x55#8])) (fun t =>
      t.readByte 0x300 != 0#8) = true ∧
    nextHas (step (loading [0x12#8])) (fun t => t.readByte 0x200 != State.reset.readByte 0x200) = true := by decide
theorem witness_OutsideMovesLeaveTheCoreAlone : ({ base with env := ⟨[.timerTick], [], 0⟩ } : State).nextMove = .timerTick ∧
    nextHas (step { base with env := ⟨[.timerTick], [], 0⟩ }) (fun t => t.timerPending == 1#8) = true := by decide
theorem witness_ResetValuesAreAsListed : ({ ended with env := ⟨[.reset], [], 0⟩ } : State).nextMove = .reset ∧
    ended.sched = .exit ∧ nextHas (step { ended with env := ⟨[.reset], [], 0⟩ }) (fun t =>
      t.run == .unloaded && !t.fuse && t.pc == 0x200#16) = true ∧
    base.run ≠ .unloaded ∧ base.sched ≠ .exit := by decide
theorem witness_ConfigurationIsFixedInARun :
    nextHas (step { State.reset with env := ⟨[.configure { Config.reference with stackDepth := 1 }], [], 0⟩ }) (fun t =>
      t.stack == [0#16]) = true ∧ State.reset.run = .unloaded ∧
    nextHas (step { base with env := ⟨[.configure { Config.reference with stackDepth := 1 }], [], 0⟩ }) (fun t =>
      t.cfg == Config.reference) = true ∧ base.run ≠ .unloaded := by decide
theorem witness_LoadSetsTheWholeMachine : (loading [0x12#8]).nextMove = .load [0x12#8] ∧ (loading [0x12#8]).run = .unloaded ∧
    configValid (loading [0x12#8]).cfg = true ∧ 1 ≤ [0x12#8].length ∧ (List.replicate 0xE00 0#8).length ≤ 0xE00 :=
  ⟨rfl, rfl, by decide, by decide, le_of_eq List.length_replicate⟩
theorem witness_RejectedLoadsChangeNothing : (loading []).nextMove = .load [] ∧ loadReply (loading []).cfg [] ≠ .ok ∧
    base.run ≠ .unloaded ∧ (loading [1#8]).nextMove = .load [1#8] ∧ loadReply (loading [1#8]).cfg [1#8] = .ok ∧
    ¬(1 ≤ ({ Config.reference with cyclesPerTick := 0 } : Config).cyclesPerTick) := by decide
theorem witness_LoadedImageIsFetchedFirst : [0x60#8, 5#8].length ≤ 0xE00 ∧
    decode [0x60#8, 5#8] = .ok (.ldVxNn 0#4 5#8, []) := by decide
theorem witness_PlacedWordRunsNext : Memory.wf State.reset.mem = true ∧ decodeWord 0x6005#16 = .ok (.ldVxNn 0#4 5#8) := by
  decide
/-- Two states a program cannot tell apart though `ST`, the Fuse and the pending count differ. -/
theorem witness_ProgramsSeeOnlyTheVisibleState :
    State.SameForProgram base { base with st := 9#8, fuse := true, timerPending := 4#8, ku := 1#16, invalidSeen := true } ∧
    base ≠ { base with st := 9#8, fuse := true, timerPending := 4#8, ku := 1#16, invalidSeen := true } :=
  ⟨⟨rfl, rfl, rfl, rfl, rfl, rfl, rfl, rfl, rfl, rfl, rfl, rfl, rfl, rfl⟩, by decide⟩
theorem witness_CanonicalMemoryIsUnique : Memory.wf [(1, 1#8)] = true ∧ Memory.wf (Memory.write [] 1 1#8) = true := by decide
theorem witness_FontLookup : configValid base.cfg = true := by decide
theorem witness_JumpRegister : base.cfg.jumpOffsetReg = .v0 ∧
    (State.under base (fun c => { c with jumpOffsetReg := .vx })).cfg.jumpOffsetReg = .vx ∧ base.cfg.fx1eVf = .unchanged ∧
    (State.under base (fun c => { c with fx1eVf := .overflowFff })).cfg.fx1eVf = .overflowFff := by decide

end Sys2Proof.Tests
end

section
/-! What the moves of a run leave alone: the frame of an Interpreter step, of a Core step, and the ways a move of any agent
can change what crosses between the agents. -/

namespace Sys2Proof.Machine

/-! ### The frame of an Interpreter step -/

/-- What no Interpreter step changes: the surfaces of the other agents, the Fuse, the Scheduler's state, the strobe count,
the configuration and the listed moves; and `RUNSTATE` but to HALTED (R305). -/
structure State.InterpFrame (s t : State) : Prop where
  snap         : t.snap = s.snap
  snapReq      : t.snapReq = s.snapReq
  ku           : t.ku = s.ku
  kp           : t.kp = s.kp
  fuse         : t.fuse = s.fuse
  sched        : t.sched = s.sched
  batchLeft    : t.batchLeft = s.batchLeft
  timerPending : t.timerPending = s.timerPending
  cfg          : t.cfg = s.cfg
  agenda       : t.env.agenda = s.env.agenda
  run          : t.run = s.run ∨ t.run = .halted

theorem State.InterpFrame.refl (s : State) : s.InterpFrame s := by constructor <;> simp

theorem State.interpFrame_takeFault (s : State) (f : Fault) (op : Word) : s.InterpFrame (s.takeFault f op) := by
  constructor <;> simp

/-- A checked operation keeps the frame when the operation behind the check does. -/
theorem State.InterpFrame.of_orRaise {check : Option Fault} {s k t : State} (hk : s.InterpFrame k)
    (h : orRaise check s k = .next t) : s.InterpFrame t := by
  obtain ⟨f, -, rfl⟩ | ⟨-, rfl⟩ := orRaise_cases h
  · exact s.interpFrame_takeFault f _
  · exact hk

/-- Every instruction keeps the frame: six of them behind a check that can fault (R300), the others at once. -/
theorem exec_interpFrame {i : Instr} {s t : State} (h : exec i s = .next t) : s.InterpFrame t := by
  cases i with
  | ret | callNnn | drwVxVyN | ldBVx | ldMemVx | ldVxMem =>
    refine .of_orRaise ?_ h
    constructor <;> simp
  | _ =>
    obtain rfl := Host.Outcome.next.inj h
    constructor <;> simp [State.afterDraw_agenda]

theorem runFetched_interpFrame {s t : State} (h : runFetched s = .next t) : s.InterpFrame t := by
  rw [runFetched_eq] at h
  cases hd : decodeWord s.fetchedWord with
  | ok i => exact exec_interpFrame (i := i) (by simpa only [hd] using h)
  | reject r =>
    have hw : invalidWord s = .next t := by simpa only [hd] using h
    cases hp : s.cfg.invalidOpcode with
    | fatal =>
      obtain rfl := Host.Outcome.next.inj ((invalidWord_fatal hp).symm.trans hw)
      exact s.interpFrame_takeFault _ _
    | skip =>
      obtain rfl := Host.Outcome.next.inj ((invalidWord_skip hp).symm.trans hw)
      constructor <;> simp

theorem State.interpFrame_keyWaitPoll (s : State) : s.InterpFrame s.keyWaitPoll := by
  obtain ⟨-, h⟩ | ⟨k, -, h⟩ := keyWaitPoll_cases s <;> rw [h] <;> constructor <;> simp

theorem interpStep_interpFrame {s t : State} (h : interpStep s = .next t) : s.InterpFrame t := by
  obtain ⟨-, hn⟩ | ⟨-, -, hn⟩ | ⟨-, -, f, -, hn⟩ | ⟨-, -, -, hn⟩ := interpStep_cases s <;> rw [hn] at h
  · obtain rfl := Host.Outcome.next.inj h
    exact .refl s
  · obtain rfl := Host.Outcome.next.inj h
    exact s.interpFrame_keyWaitPoll
  · obtain rfl := Host.Outcome.next.inj h
    exact s.interpFrame_takeFault f _
  · exact runFetched_interpFrame h

/-! ### What crosses between the agents -/

/-- Nothing of the snapshot and key crossings changes, nor the listed moves. -/
structure State.KeepsCrossings (s t : State) : Prop where
  snap    : t.snap = s.snap
  snapReq : t.snapReq = s.snapReq
  ku      : t.ku = s.ku
  kp      : t.kp = s.kp
  agenda  : t.env.agenda = s.env.agenda

theorem State.KeepsCrossings.refl (s : State) : s.KeepsCrossings s := ⟨rfl, rfl, rfl, rfl, rfl⟩

/-- The ways a Core step out of BATCH can go (R320, R323): to EXIT after a fault, else one step less is left and the batch
goes on or its timer phase follows. -/
theorem coreMove_batch_cases {s t : State} (hs : s.sched = .batch) (h : coreMove s = .next t) :
    ∃ u, s.InterpFrame u ∧ (t = { u.trip with sched := .exit } ∨
      t = { u with batchLeft := s.batchLeft - 1, sched := if s.batchLeft - 1 = 0 then .timer else .batch }) := by
  rw [coreMove_batch hs] at h
  obtain ⟨u, hu, rfl⟩ := onNext_eq_next h
  have hf := interpStep_interpFrame hu
  refine ⟨u, hf, ?_⟩
  obtain ⟨-, -, he⟩ | ⟨-, he⟩ := afterBatchStep_cases s u
  · exact .inl he
  · exact .inr (by rw [he, hf.batchLeft])

/-- The ways a Core step out of TIMER can go (R320, R324). -/
theorem coreMove_timer_cases {s t : State} (hs : s.sched = .timer) (h : coreMove s = .next t) :
    (s.fuse = true ∧ t = s.timerPhase.exitRun) ∨ (s.fuse = false ∧ t = { s.timerPhase with sched := .sleep }) := by
  obtain rfl := Host.Outcome.next.inj ((coreMove_timer hs).symm.trans h)
  unfold timerTransition
  cases hf : s.fuse <;> simp

/-- What a tick does (R320, R321, R370). -/
theorem tickMove_cases (s : State) :
    (tickEnabled s = false ∧ tickMove s = s) ∨
    (tickEnabled s = true ∧ s.fuse = true ∧ tickMove s = s.exitRun) ∨
    (tickEnabled s = true ∧ s.fuse = false ∧ tickMove s = { s with batchLeft := s.cfg.cyclesPerTick, sched := .batch }) := by
  unfold tickMove sleepTransition
  cases tickEnabled s <;> cases s.fuse <;> simp

/-- Whether a tick is enabled, as a proposition (R321, R370). -/
theorem tickEnabled_iff (s : State) : tickEnabled s = true ↔ s.sched = .sleep ∧ s.run ≠ .unloaded := by
  simp [tickEnabled]

theorem strobeEnabled_iff (s : State) : strobeEnabled s = true ↔ s.run = .running ∧ s.sched ≠ .exit := by
  simp [strobeEnabled]

/-- A strobe changes the strobe count at most (R330). -/
theorem strobeMove_eq (s : State) : ∃ b, strobeMove s = { s with timerPending := b } := by
  unfold strobeMove
  split
  · exact ⟨_, rfl⟩
  · exact ⟨s.timerPending, rfl⟩

theorem coreMove_keepsCrossings {s t : State} (h : coreMove s = .next t) : s.KeepsCrossings t := by
  cases hs : s.sched with
  | batch =>
    obtain ⟨u, hf, rfl | rfl⟩ := coreMove_batch_cases hs h <;>
      exact ⟨hf.snap, hf.snapReq, hf.ku, hf.kp, hf.agenda⟩
  | timer => obtain ⟨-, rfl⟩ | ⟨-, rfl⟩ := coreMove_timer_cases hs h <;> exact ⟨rfl, rfl, rfl, rfl, rfl⟩
  | sleep => obtain rfl := Host.Outcome.next.inj ((coreMove_sleep hs).symm.trans h); exact .refl s
  | exit => obtain rfl := Host.Outcome.next.inj ((coreMove_exit hs).symm.trans h); exact .refl s

theorem tickMove_keepsCrossings (s : State) : s.KeepsCrossings (tickMove s) := by
  obtain ⟨-, h⟩ | ⟨-, -, h⟩ | ⟨-, -, h⟩ := tickMove_cases s <;> rw [h] <;> exact ⟨rfl, rfl, rfl, rfl, rfl⟩

theorem strobeMove_keepsCrossings (s : State) : s.KeepsCrossings (strobeMove s) := by
  obtain ⟨b, h⟩ := strobeMove_eq s
  rw [h]; exact ⟨rfl, rfl, rfl, rfl, rfl⟩

theorem configureMove_keepsCrossings (c : Config) (s : State) : s.KeepsCrossings (configureMove c s) := by
  obtain ⟨-, h⟩ | ⟨-, h⟩ := configureMove_cases c s <;> rw [h] <;> exact ⟨rfl, rfl, rfl, rfl, rfl⟩

theorem loadMove_keepsCrossings (image : List Byte) (s : State) : s.KeepsCrossings (loadMove image s) := by
  obtain ⟨-, -, h⟩ | h := loadMove_cases image s <;> rw [h] <;> exact ⟨rfl, rfl, rfl, rfl, rfl⟩

theorem snapCaptureMove_of_pending {s : State} (h : s.snapReq = true) :
    snapCaptureMove s = { s with snap := s.fb, snapReq := false } := if_pos h

theorem snapCaptureMove_of_none {s : State} (h : s.snapReq = false) : snapCaptureMove s = s := by
  simp [snapCaptureMove, h]

/-- The ways a move but a reset can touch the crossings (R211, R240, R241): four moves do, each in its own way. -/
theorem agentMove_crossing_cases {m : Move} {s t : State} (h : agentMove m s = .next t) (hm : m ≠ .reset) :
    s.KeepsCrossings t ∨
    (m = .snapCapture ∧ s.snapReq = true ∧ t = { s with snap := s.fb, snapReq := false }) ∨
    (m = .snapshotRequest ∧ t = { s with snapReq := true }) ∨
    (∃ k p, m = .setKey k p ∧ t = setKeyMove k p s) ∨
    (∃ k, m = .inputSync k ∧ t = inputSyncMove k s) := by
  cases m with
  | core => exact .inl (coreMove_keepsCrossings h)
  | tick => obtain rfl := Host.Outcome.next.inj h; exact .inl (tickMove_keepsCrossings s)
  | timerTick => obtain rfl := Host.Outcome.next.inj h; exact .inl (strobeMove_keepsCrossings s)
  | inputSync k => exact .inr (.inr (.inr (.inr ⟨k, rfl, (Host.Outcome.next.inj h).symm⟩)))
  | snapCapture =>
    obtain rfl := Host.Outcome.next.inj h
    cases hr : s.snapReq with
    | true => exact .inr (.inl ⟨rfl, rfl, snapCaptureMove_of_pending hr⟩)
    | false => rw [snapCaptureMove_of_none hr]; exact .inl (.refl s)
  | setKey k p => exact .inr (.inr (.inr (.inl ⟨k, p, rfl, (Host.Outcome.next.inj h).symm⟩)))
  | snapshotRequest => exact .inr (.inr (.inl ⟨rfl, (Host.Outcome.next.inj h).symm⟩))
  | trip => obtain rfl := Host.Outcome.next.inj h; exact .inl ⟨rfl, rfl, rfl, rfl, rfl⟩
  | configure c => obtain rfl := Host.Outcome.next.inj h; exact .inl (configureMove_keepsCrossings c s)
  | load image => obtain rfl := Host.Outcome.next.inj h; exact .inl (loadMove_keepsCrossings image s)
  | reset => exact absurd rfl hm

/-- No move changes the moves that are listed after it. -/
theorem agentMove_agenda {m : Move} {s t : State} (h : agentMove m s = .next t) : t.env.agenda = s.env.agenda := by
  by_cases hm : m = .reset
  · subst hm
    obtain rfl := Host.Outcome.next.inj h
    unfold resetMove
    split <;> rfl
  · obtain hk | ⟨-, -, rfl⟩ | ⟨-, rfl⟩ | ⟨_, _, -, rfl⟩ | ⟨_, -, rfl⟩ := agentMove_crossing_cases h hm
    · exact hk.agenda
    all_goals rfl

/-- A step takes its move off the list and lists no other. -/
theorem step_agenda {s t : State} (h : step s = .next t) : t.env.agenda = s.env.agenda.tail :=
  agentMove_agenda h

/-- One bit of a key register after a write of one bit (R44). -/
theorem getLsbD_withKeyBit (w : Word) (k : BitVec 4) (b : Bool) {j : Nat} (hj : j < 16) :
    (withKeyBit w k b).getLsbD j = if j = k.toNat then b else w.getLsbD j := by
  by_cases h : j = k.toNat
  · subst h
    cases b <;> simp [withKeyBit, hj]
  · cases b <;> simp [withKeyBit, h, hj]

/-- The bits of `KP` after a key copy (R241). -/
theorem getLsbD_kp_inputSyncMove (k : BitVec 4) (s : State) {j : Nat} (hj : j < 16) :
    (inputSyncMove k s).kp.getLsbD j = if j = k.toNat then s.ku.getLsbD j else s.kp.getLsbD j := by
  rw [inputSyncMove, getLsbD_withKeyBit s.kp k _ hj]
  split
  · next h => rw [h]; rfl
  · rfl

end Sys2Proof.Machine
end

section
/-! Fair schedules (spec/00_scope.md R8): a move that fairness obliges comes while what enables it holds. From that, every
crossing completes (R211, R241), and a run whose Fuse is tripped ends (R343). -/

namespace Sys2Proof.Machine

/-- A move fairness obliges comes before what enables it is lost, when only that move can end it. -/
theorem fair_comes {moves : Schedule} {r : Nat → State} (hf : fair moves r) {m : Move} (hm : m.obliged = true)
    {P : Nat → Prop} {n : Nat} (hn : P n) (hen : ∀ k, P k → m.enabled (r k) = true)
    (hkeep : ∀ k, n ≤ k → P k → moves k ≠ m → P (k + 1)) : ∃ k, n ≤ k ∧ P k ∧ moves k = m := by
  by_contra hno
  have hne (k : Nat) (hk : n ≤ k) (hP : P k) : moves k ≠ m := fun e => hno ⟨k, hk, hP, e⟩
  have hall (k : Nat) (hk : n ≤ k) : P k := by
    induction k, hk using Nat.le_induction with
    | base => exact hn
    | succ k hk ih => exact hkeep k hk ih (hne k hk ih)
  obtain ⟨k, hk, hmove | hdis⟩ := hf m n hm (hen n hn)
  · exact hne k hk (hall k hk) hmove
  · simp [hen k (hall k hk)] at hdis

/-! ### Crossings (R211, R241) -/

/-- A pending request stays until it is captured (R211). -/
theorem agentMove_snapReq {m : Move} {s t : State} (h : agentMove m s = .next t) (hm : m ≠ .reset)
    (hc : m ≠ .snapCapture) (hs : s.snapReq = true) : t.snapReq = true := by
  obtain hk | ⟨rfl, -, -⟩ | ⟨-, rfl⟩ | ⟨_, _, -, rfl⟩ | ⟨_, -, rfl⟩ := agentMove_crossing_cases h hm
  · rw [hk.snapReq, hs]
  · exact absurd rfl hc
  · rfl
  · exact hs
  · exact hs

/-- A bit of `KP` changes only to what `KU` holds (R241). -/
theorem agentMove_kp {m : Move} {s t : State} (h : agentMove m s = .next t) (hm : m ≠ .reset) (key : BitVec 4) :
    t.kp.getLsbD key.toNat = s.kp.getLsbD key.toNat ∨ t.kp.getLsbD key.toNat = s.ku.getLsbD key.toNat := by
  obtain hk | ⟨-, -, rfl⟩ | ⟨-, rfl⟩ | ⟨_, _, -, rfl⟩ | ⟨k, -, rfl⟩ := agentMove_crossing_cases h hm
  · exact .inl (by rw [hk.kp])
  · exact .inl rfl
  · exact .inl rfl
  · exact .inl rfl
  · rw [getLsbD_kp_inputSyncMove k s key.isLt]
    split
    · exact .inr rfl
    · exact .inl rfl

/-- R211: under a fair schedule a pending request is captured, and the capture takes the frame of its own moment. -/
theorem fair_captures {moves : Schedule} {r : Nat → State} (hr : runsUnder moves r) (hf : fair moves r)
    (hm : ∀ n, moves n ≠ .reset) {n : Nat} (hn : (r n).snapReq = true) :
    ∃ k, n ≤ k ∧ moves k = .snapCapture ∧ (r k).snapReq = true ∧ (r (k + 1)).snap = (r k).fb ∧
      (r (k + 1)).snapshotRead = some (r k).fb := by
  obtain ⟨k, hk, hpend, hmove⟩ := fair_comes hf (m := .snapCapture) rfl (P := fun k => (r k).snapReq = true) hn
    (fun _ h => h) (fun k _ h hc => agentMove_snapReq (runsUnder_step hr k) (hm k) hc h)
  have hstep := runsUnder_step hr k
  rw [hmove] at hstep
  have hnext : r (k + 1) = { r k with snap := (r k).fb, snapReq := false } :=
    (Host.Outcome.next.inj hstep).symm.trans (snapCaptureMove_of_pending hpend)
  exact ⟨k, hk, hmove, hpend, by rw [hnext], by rw [hnext]; rfl⟩

/-- R241: under a fair schedule the `KP` bit of a key meets its `KU` bit once that bit has settled. -/
theorem fair_copies_key {moves : Schedule} {r : Nat → State} (hr : runsUnder moves r) (hf : fair moves r)
    {key : BitVec 4} {n : Nat} (hku : ∀ k, n ≤ k → (r k).ku.getLsbD key.toNat = (r n).ku.getLsbD key.toNat) :
    ∃ k, n ≤ k ∧ (r k).kp.getLsbD key.toNat = (r n).ku.getLsbD key.toNat := by
  cases hen : Move.enabled (.inputSync key) (r n) with
  | false => exact ⟨n, le_rfl, by simpa [Move.enabled, keyBit] using hen⟩
  | true =>
    obtain ⟨k, hk, hmove | hdis⟩ := hf (.inputSync key) n rfl hen
    · have hstep := runsUnder_step hr k
      rw [hmove] at hstep
      have hnext : r (k + 1) = inputSyncMove key (r k) := (Host.Outcome.next.inj hstep).symm
      exact ⟨k + 1, by omega, by rw [hnext, ← hku k hk, getLsbD_kp_inputSyncMove key _ key.isLt, if_pos rfl]⟩
    · exact ⟨k, hk, by rw [← hku k hk]; simpa [Move.enabled, keyBit] using hdis⟩

/-- A `KP` bit that has met its settled `KU` bit stays (R241). -/
theorem settled_key_stays {moves : Schedule} {r : Nat → State} (hr : runsUnder moves r) (hm : ∀ n, moves n ≠ .reset)
    {key : BitVec 4} {n k : Nat} (hku : ∀ j, n ≤ j → (r j).ku.getLsbD key.toNat = (r n).ku.getLsbD key.toNat)
    (hnk : n ≤ k) (hk : (r k).kp.getLsbD key.toNat = (r n).ku.getLsbD key.toNat) (j : Nat) (hj : k ≤ j) :
    (r j).kp.getLsbD key.toNat = (r n).ku.getLsbD key.toNat := by
  induction j, hj using Nat.le_induction with
  | base => exact hk
  | succ j hj ih =>
    obtain h | h := agentMove_kp (runsUnder_step hr j) (hm j) key
    · rw [h, ih]
    · rw [h, hku j (hnk.trans hj)]

/-! ### The end of a tripped run (R343) -/

/-- How far the Scheduler is from the end of a tripped run: it falls with every enabled Core step of such a run, and in
BATCH and TIMER with the Core's move of any run. `State.coreStepsToExit` does so only where a batch has a step left. -/
def State.schedRank (s : State) : Nat :=
  match s.sched with
  | .exit => 0
  | .sleep => 1
  | .timer => 2
  | .batch => s.batchLeft + 3

theorem State.schedRank_congr {s t : State} (hs : t.sched = s.sched) (hb : t.batchLeft = s.batchLeft) :
    t.schedRank = s.schedRank := by
  unfold State.schedRank; rw [hs, hb]

/-- The Core's own move in each state of its Scheduler: a tick in SLEEP (R320, R321). In EXIT it has none. -/
def State.ownCoreMove (s : State) : Move := if s.sched = .sleep then .tick else .core

theorem State.ownCoreMove_sleep {s : State} (h : s.sched = .sleep) : s.ownCoreMove = .tick := if_pos h

theorem State.ownCoreMove_awake {s : State} (h : s.sched ≠ .sleep) : s.ownCoreMove = .core := if_neg h

theorem State.ownCoreMove_congr {s t : State} (hs : t.sched = s.sched) : t.ownCoreMove = s.ownCoreMove := by
  unfold State.ownCoreMove; rw [hs]

theorem State.ownCoreMove_obliged (s : State) : s.ownCoreMove.obliged = true := by
  unfold State.ownCoreMove; split <;> rfl

/-- In BATCH and TIMER a Core step brings the Scheduler nearer to the end of its tick. -/
theorem coreMove_schedRank {s t : State} (hs : s.sched = .batch ∨ s.sched = .timer) (h : coreMove s = .next t) :
    t.schedRank < s.schedRank := by
  obtain hs | hs := hs
  · obtain ⟨u, -, rfl | rfl⟩ := coreMove_batch_cases hs h
    · simp [State.schedRank, hs]
    · by_cases hb : s.batchLeft - 1 = 0
      · simp [State.schedRank, hs, hb]
      · simp [State.schedRank, hs, hb]; omega
  · obtain ⟨-, rfl⟩ | ⟨-, rfl⟩ := coreMove_timer_cases hs h <;> simp [State.schedRank, hs]

/-- A run that is under way with its Fuse tripped. -/
structure State.TrippedRun (s : State) : Prop where
  loaded  : s.run ≠ .unloaded
  tripped : s.fuse = true
  going   : s.sched ≠ .exit

theorem State.TrippedRun.ownCoreMove_enabled {s : State} (h : s.TrippedRun) : s.ownCoreMove.enabled s = true := by
  by_cases hs : s.sched = .sleep
  · rw [State.ownCoreMove_sleep hs]
    exact (tickEnabled_iff s).2 ⟨hs, h.loaded⟩
  · have hgo := h.going
    rw [State.ownCoreMove_awake hs]
    cases hc : s.sched <;> simp_all [Move.enabled]

/-- A Core step leaves the run loaded and the Fuse tripped. -/
theorem coreMove_keeps_trip {s t : State} (hr : s.run ≠ .unloaded) (hf : s.fuse = true) (h : coreMove s = .next t) :
    t.run ≠ .unloaded ∧ t.fuse = true := by
  cases hs : s.sched with
  | batch =>
    obtain ⟨u, hu, rfl | rfl⟩ := coreMove_batch_cases hs h
    all_goals
      have hrun : u.run ≠ .unloaded := by obtain e | e := hu.run <;> simp [e, hr]
      simp [hrun, hu.fuse, hf]
  | timer => obtain ⟨-, rfl⟩ | ⟨-, rfl⟩ := coreMove_timer_cases hs h <;> simp [hr, hf]
  | sleep => obtain rfl := Host.Outcome.next.inj ((coreMove_sleep hs).symm.trans h); exact ⟨hr, hf⟩
  | exit => obtain rfl := Host.Outcome.next.inj ((coreMove_exit hs).symm.trans h); exact ⟨hr, hf⟩

/-- The Core's own move of a tripped run brings it nearer to EXIT, and the run stays loaded and tripped. -/
theorem ownCoreMove_nearer {s t : State} (hs : s.TrippedRun) (h : agentMove s.ownCoreMove s = .next t) :
    t.run ≠ .unloaded ∧ t.fuse = true ∧ t.schedRank < s.schedRank := by
  obtain ⟨hr, hf, hgo⟩ := hs
  by_cases hs : s.sched = .sleep
  · rw [State.ownCoreMove_sleep hs] at h
    obtain rfl := Host.Outcome.next.inj h
    obtain ⟨hdis, -⟩ | ⟨-, -, he⟩ | ⟨-, hno, -⟩ := tickMove_cases s
    · rw [(tickEnabled_iff s).2 ⟨hs, hr⟩] at hdis
      cases hdis
    · simp [he, hf, State.schedRank, hs]
    · rw [hf] at hno
      cases hno
  · rw [State.ownCoreMove_awake hs] at h
    have hc : s.sched = .batch ∨ s.sched = .timer := by cases hc : s.sched <;> simp_all
    obtain ⟨h1, h2⟩ := coreMove_keeps_trip hr hf h
    exact ⟨h1, h2, coreMove_schedRank hc h⟩

/-- Any other move leaves a tripped run as it stands: the Scheduler's state, the steps left and the Fuse. -/
theorem otherMove_keeps_trippedRun {m : Move} {s t : State} (hs : s.TrippedRun) (hm : m ≠ s.ownCoreMove)
    (h : agentMove m s = .next t) : t.TrippedRun ∧ t.sched = s.sched ∧ t.batchLeft = s.batchLeft := by
  obtain ⟨hr, hf, hgo⟩ := hs
  have same : s.TrippedRun ∧ s.sched = s.sched ∧ s.batchLeft = s.batchLeft := ⟨⟨hr, hf, hgo⟩, rfl, rfl⟩
  cases m with
  | core =>
    have hc : s.sched = .sleep := by_contra fun hc => hm (State.ownCoreMove_awake hc).symm
    obtain rfl := Host.Outcome.next.inj ((coreMove_sleep hc).symm.trans h)
    exact same
  | tick =>
    obtain rfl := Host.Outcome.next.inj h
    have hdis : tickEnabled s = false := by
      rw [Bool.eq_false_iff, Ne, tickEnabled_iff]
      exact fun hc => hm (State.ownCoreMove_sleep hc.1).symm
    rw [tickMove, hdis]; exact same
  | timerTick =>
    obtain rfl := Host.Outcome.next.inj h
    obtain ⟨b, he⟩ := strobeMove_eq s
    rw [he]; exact ⟨⟨hr, hf, hgo⟩, rfl, rfl⟩
  | snapCapture =>
    obtain rfl := Host.Outcome.next.inj h
    unfold snapCaptureMove
    split
    · exact ⟨⟨hr, hf, hgo⟩, rfl, rfl⟩
    · exact same
  | inputSync | setKey | snapshotRequest =>
    obtain rfl := Host.Outcome.next.inj h
    exact ⟨⟨hr, hf, hgo⟩, rfl, rfl⟩
  | trip => obtain rfl := Host.Outcome.next.inj h; exact ⟨⟨hr, rfl, hgo⟩, rfl, rfl⟩
  | configure c =>
    obtain rfl := Host.Outcome.next.inj h
    obtain ⟨hu, -⟩ | ⟨-, he⟩ := configureMove_cases c s
    · exact absurd hu hr
    · rw [he]; exact same
  | load image =>
    obtain rfl := Host.Outcome.next.inj h
    obtain ⟨hu, -⟩ | he := loadMove_cases image s
    · exact absurd hu hr
    · rw [he]; exact same
  | reset =>
    obtain rfl := Host.Outcome.next.inj h
    have he : resetMove s = s := if_neg (by simp [hr, hgo])
    rw [he]; exact same

/-- Under a fair schedule a tripped run comes nearer to EXIT: the Core's own move comes, and no other has changed the
Scheduler before it. -/
theorem fair_trippedRun_nearer {moves : Schedule} {r : Nat → State} (hr : runsUnder moves r) (hf : fair moves r)
    {n : Nat} (hn : (r n).TrippedRun) :
    ∃ k, n ≤ k ∧ (r k).run ≠ .unloaded ∧ (r k).fuse = true ∧ (r k).schedRank < (r n).schedRank := by
  obtain ⟨k, hk, ⟨hgo, hs, hb⟩, hmove⟩ := fair_comes hf (r n).ownCoreMove_obliged
    (P := fun k => (r k).TrippedRun ∧ (r k).sched = (r n).sched ∧ (r k).batchLeft = (r n).batchLeft) ⟨hn, rfl, rfl⟩
    (fun k ⟨hgo, hs, _⟩ => State.ownCoreMove_congr hs ▸ hgo.ownCoreMove_enabled)
    (fun k _ ⟨hgo, hs, hb⟩ hm => by
      obtain ⟨hgo', hs', hb'⟩ :=
        otherMove_keeps_trippedRun hgo (State.ownCoreMove_congr hs ▸ hm) (runsUnder_step hr k)
      exact ⟨hgo', hs'.trans hs, hb'.trans hb⟩)
  have hstep := runsUnder_step hr k
  rw [hmove, ← State.ownCoreMove_congr hs] at hstep
  obtain ⟨h1, h2, hlt⟩ := ownCoreMove_nearer hgo hstep
  exact ⟨k + 1, by omega, h1, h2, State.schedRank_congr hs hb ▸ hlt⟩

/-- Under a fair schedule a tripped run ends, by induction on how far the Scheduler is from its end. -/
theorem fair_trippedRun_ends {moves : Schedule} {r : Nat → State} (hr : runsUnder moves r) (hf : fair moves r) (n : Nat)
    (hrun : (r n).run ≠ .unloaded) (hfuse : (r n).fuse = true) : ∃ k, n ≤ k ∧ (r k).sched = .exit := by
  induction hrank : (r n).schedRank using Nat.strong_induction_on generalizing n with
  | _ rank ih =>
    by_cases hs : (r n).sched = .exit
    · exact ⟨n, le_rfl, hs⟩
    · obtain ⟨k, hk, h1, h2, hlt⟩ := fair_trippedRun_nearer hr hf ⟨hrun, hfuse, hs⟩
      obtain ⟨j, hj, he⟩ := ih _ (hrank ▸ hlt) k h1 h2 rfl
      exact ⟨j, hk.trans hj, he⟩

end Sys2Proof.Machine

open Sys2Proof.Machine

/-- Settles O42: fairness brings the capture and the key copy, since nothing but that move takes away what enables it. -/
theorem fairRunsCompleteEveryCrossing : Obligations.FairRunsCompleteEveryCrossing := by
  intro moves r hr hf hm
  refine ⟨fun n hn => fair_captures hr hf hm hn, fun key n hku => ?_⟩
  obtain ⟨k, hk, hkp⟩ := fair_copies_key hr hf hku
  exact ⟨k, hk, settled_key_stays hr hm hku hk hkp⟩

/-- Settles O43: fairness keeps bringing the Core's own move, each of which brings a tripped run nearer to EXIT. -/
theorem fairRunsEndAfterATrip : Obligations.FairRunsEndAfterATrip :=
  fun _ _ hr hf n _ hrun hfuse => fair_trippedRun_ends hr hf n hrun hfuse
end

section
/-! The machine by itself (spec/00_scope.md R8; log 2): every unending run of `step` is fair. Once the listed moves are used
up, the default order brings the run again and again to a state where nothing waits to cross and the Core sleeps or has
ended: a SETTLED state. There every move but a strobe and a tick is disabled, and these two alternate. -/

namespace Sys2Proof.Machine

/-- A run that keeps `I` and lowers a rank until `P` holds reaches `P`. -/
theorem reaches_of_rank {r : Nat → State} (hr : runsByItself r) {I P : State → Prop} (rank : State → Nat)
    (hstep : ∀ s t, I s → ¬ P s → step s = .next t → I t ∧ rank t < rank s) (n : Nat) (hn : I (r n)) :
    ∃ k, n ≤ k ∧ I (r k) ∧ P (r k) := by
  induction hrank : rank (r n) using Nat.strong_induction_on generalizing n with
  | _ x ih =>
    by_cases hP : P (r n)
    · exact ⟨n, le_rfl, hn, hP⟩
    · obtain ⟨hI, hlt⟩ := hstep _ _ hn hP (hr n)
      obtain ⟨k, hk, h⟩ := ih _ (hrank ▸ hlt) (n + 1) hI rfl
      exact ⟨k, by omega, h⟩

/-- The listed moves come to an end. -/
theorem agenda_runs_out {r : Nat → State} (hr : runsByItself r) (n : Nat) : ∃ k, n ≤ k ∧ (r k).env.agenda = [] := by
  obtain ⟨k, hk, -, he⟩ := reaches_of_rank hr (I := fun _ => True) (P := fun s => s.env.agenda = [])
    (fun s => s.env.agenda.length) (fun s t _ hne h => ⟨trivial, by
      have := List.length_pos_of_ne_nil hne
      rw [step_agenda h, List.length_tail]; omega⟩) n trivial
  exact ⟨k, hk, he⟩

/-! ### The default order -/

theorem State.nextMove_of_agenda_nil {s : State} (h : s.env.agenda = []) : s.nextMove = s.defaultMove := by
  unfold State.nextMove; rw [h]

/-- With nothing listed, a step is the default move. -/
theorem step_of_defaultMove {s : State} {m : Move} (ha : s.env.agenda = []) (hm : s.defaultMove = m) :
    step s = agentMove m s.dropMove :=
  step_of_nextMove (by rw [State.nextMove_of_agenda_nil ha, hm])

/-- How many captures and key copies wait to come. -/
def State.crossingsLeft (s : State) : Nat :=
  s.snapReq.toNat + ((Finset.range 16).filter fun j => s.ku.getLsbD j ≠ s.kp.getLsbD j).card

theorem State.KeepsCrossings.crossingsLeft {s t : State} (h : s.KeepsCrossings t) : t.crossingsLeft = s.crossingsLeft := by
  unfold State.crossingsLeft; rw [h.snapReq, h.ku, h.kp]

theorem crossingsLeft_snapCapture {s : State} (h : s.snapReq = true) :
    (snapCaptureMove s).crossingsLeft < s.crossingsLeft := by
  simp [snapCaptureMove_of_pending h, State.crossingsLeft, h]

theorem crossingsLeft_inputSync {s : State} {k : BitVec 4} (h : s.ku.getLsbD k.toNat ≠ s.kp.getLsbD k.toNat) :
    (inputSyncMove k s).crossingsLeft < s.crossingsLeft := by
  refine Nat.add_lt_add_left (Finset.card_lt_card ⟨fun j hj => ?_, fun hsub => ?_⟩) _
  · rw [Finset.mem_filter, Finset.mem_range] at hj ⊢
    obtain ⟨hlt, hne⟩ := hj
    rw [getLsbD_kp_inputSyncMove k s hlt] at hne
    refine ⟨hlt, ?_⟩
    split at hne
    · exact absurd rfl hne
    · exact hne
  · obtain ⟨-, hne⟩ := Finset.mem_filter.1 (hsub (Finset.mem_filter.2 ⟨Finset.mem_range.2 k.isLt, h⟩))
    rw [getLsbD_kp_inputSyncMove k s k.isLt, if_pos rfl] at hne
    exact hne rfl

/-- Nothing is listed, nothing waits to cross, and the Core sleeps or has ended. -/
structure State.Settled (s : State) : Prop where
  agenda  : s.env.agenda = []
  resting : s.sched = .sleep ∨ s.sched = .exit
  crossed : s.waitingCrossing = none

/-- In SLEEP every strobe has been consumed by a timer phase (R331). -/
def State.StrobesConsumed (s : State) : Prop := s.sched = .sleep → s.timerPending = 0#8

/-- What lies before a settled state: first the rest of the batch and its timer phase, then the crossings that wait. -/
def State.settleRank (s : State) : Nat := s.schedRank + s.crossingsLeft

/-- A Core step out of BATCH or TIMER brings a settled state nearer; only a timer phase leads to SLEEP. -/
theorem coreMove_settles {s t : State} (hs : s.sched = .batch ∨ s.sched = .timer) (h : coreMove s = .next t) :
    t.settleRank < s.settleRank ∧ t.StrobesConsumed := by
  have hrank := coreMove_schedRank hs h
  have hcross := (coreMove_keepsCrossings h).crossingsLeft
  refine ⟨by unfold State.settleRank; omega, ?_⟩
  obtain hs | hs := hs
  · obtain ⟨u, -, rfl | rfl⟩ := coreMove_batch_cases hs h
    · exact fun he => by cases he
    · intro he
      dsimp only at he
      split at he <;> cases he
  · obtain ⟨-, rfl⟩ | ⟨-, rfl⟩ := coreMove_timer_cases hs h <;> exact fun _ => rfl

/-- A crossing brings a settled state nearer and leaves the Scheduler and the strobe count alone. -/
theorem crossing_settles {s t : State} {m : Move} (hm : s.waitingCrossing = some m) (h : agentMove m s = .next t) :
    t.settleRank < s.settleRank ∧ t.sched = s.sched ∧ t.timerPending = s.timerPending := by
  obtain ⟨hr, he⟩ | ⟨k, he, -, hne⟩ | ⟨he, -⟩ := s.waitingCrossing_cases
  · obtain rfl := Option.some.inj (he.symm.trans hm)
    obtain rfl := Host.Outcome.next.inj h
    have hlt := crossingsLeft_snapCapture hr
    rw [snapCaptureMove_of_pending hr] at hlt ⊢
    exact ⟨Nat.add_lt_add_left hlt _, rfl, rfl⟩
  · obtain rfl := Option.some.inj (he.symm.trans hm)
    obtain rfl := Host.Outcome.next.inj h
    exact ⟨Nat.add_lt_add_left (crossingsLeft_inputSync hne) _, rfl, rfl⟩
  · rw [he] at hm; cases hm

/-- With nothing listed, a step of a state that is not settled brings a settled state nearer, and no strobe comes. -/
theorem step_settles {s t : State} (ha : s.env.agenda = []) (hs : ¬ s.Settled) (h : step s = .next t) :
    t.settleRank < s.settleRank ∧ (s.StrobesConsumed → t.StrobesConsumed) := by
  have awake (hc : s.sched = .batch ∨ s.sched = .timer) (hm : s.defaultMove = .core) :
      t.settleRank < s.settleRank ∧ (s.StrobesConsumed → t.StrobesConsumed) := by
    rw [step_of_defaultMove ha hm] at h
    obtain ⟨hlt, hz⟩ := coreMove_settles (s := s.dropMove) hc h
    exact ⟨hlt, fun _ => hz⟩
  have resting (hc : s.sched = .sleep ∨ s.sched = .exit) (hm : ∀ m, s.waitingCrossing = some m → s.defaultMove = m) :
      t.settleRank < s.settleRank ∧ (s.StrobesConsumed → t.StrobesConsumed) := by
    cases hw : s.waitingCrossing with
    | none => exact absurd ⟨ha, hc, hw⟩ hs
    | some m =>
      rw [step_of_defaultMove ha (hm m hw)] at h
      obtain ⟨hlt, hsch, htp⟩ := crossing_settles (s := s.dropMove) hw h
      exact ⟨hlt, fun hz he => htp.trans (hz (hsch.symm.trans he))⟩
  cases hc : s.sched with
  | batch => exact awake (.inl hc) (State.defaultMove_batch hc)
  | timer => exact awake (.inr hc) (State.defaultMove_timer hc)
  | sleep => exact resting (.inl hc) fun m hw => by rw [State.defaultMove_sleep hc, hw]; rfl
  | exit => exact resting (.inr hc) fun m hw => by rw [State.defaultMove_exit hc, hw]; rfl

/-- With nothing listed, a run settles, and no strobe comes before it does. -/
theorem settles_of_agenda_nil {r : Nat → State} (hr : runsByItself r) (n : Nat) (ha : (r n).env.agenda = []) :
    ∃ k, n ≤ k ∧ (r k).Settled ∧ ((r n).StrobesConsumed → (r k).StrobesConsumed) := by
  obtain ⟨k, hk, ⟨-, hz⟩, hs⟩ := reaches_of_rank hr (P := State.Settled)
    (I := fun s => s.env.agenda = [] ∧ ((r n).StrobesConsumed → s.StrobesConsumed)) State.settleRank
    (fun s t ⟨ha, hz⟩ hs h => by
      obtain ⟨hlt, hkeep⟩ := step_settles ha hs h
      exact ⟨⟨by rw [step_agenda h, ha]; rfl, fun hn => hkeep (hz hn)⟩, hlt⟩) n ⟨ha, id⟩
  exact ⟨k, hk, hs, hz⟩

/-- Every unending run settles again and again. -/
theorem settles {r : Nat → State} (hr : runsByItself r) (n : Nat) : ∃ k, n ≤ k ∧ (r k).Settled := by
  obtain ⟨k, hk, ha⟩ := agenda_runs_out hr n
  obtain ⟨j, hj, hs, -⟩ := settles_of_agenda_nil hr k ha
  exact ⟨j, hk.trans hj, hs⟩

/-! ### Settled states -/

/-- A settled state: the run has ended, or the timer and tick sources move next. -/
theorem State.Settled.cases {s : State} (h : s.Settled) :
    s.sched = .exit ∨ (s.sched = .sleep ∧ s.nextMove = s.sleepMove) := by
  obtain hs | hs := h.resting
  · exact .inr ⟨hs, by rw [State.nextMove_of_agenda_nil h.agenda, State.defaultMove_sleep hs, h.crossed]; rfl⟩
  · exact .inl hs

theorem State.Settled.no_core {s : State} (h : s.Settled) : Move.enabled .core s = false := by
  obtain hs | hs := h.resting <;> simp [Move.enabled, hs]

theorem State.Settled.no_snapCapture {s : State} (h : s.Settled) : Move.enabled .snapCapture s = false := by
  obtain ⟨-, he⟩ | ⟨_, he, -⟩ | ⟨-, hr, -⟩ := s.waitingCrossing_cases
  · rw [h.crossed] at he; cases he
  · rw [h.crossed] at he; cases he
  · exact hr

theorem State.Settled.no_inputSync {s : State} (h : s.Settled) (k : BitVec 4) :
    Move.enabled (.inputSync k) s = false := by
  obtain ⟨-, he⟩ | ⟨_, he, -⟩ | ⟨-, -, hk⟩ := s.waitingCrossing_cases
  · rw [h.crossed] at he; cases he
  · rw [h.crossed] at he; cases he
  · simp [Move.enabled, keyBit, hk]

/-- In SLEEP the two sources move in turn: a strobe where one counts and none is pending, else a tick (R332; log 2). -/
theorem State.sleepMove_cases (s : State) :
    (strobeEnabled s = true ∧ s.timerPending = 0#8 ∧ s.sleepMove = .timerTick) ∨
    ((strobeEnabled s = true → s.timerPending ≠ 0#8) ∧ s.sleepMove = .tick) := by
  unfold State.sleepMove
  cases strobeEnabled s <;> by_cases hz : s.timerPending = 0#8 <;> simp [hz]

/-! ### Strobes and ticks -/

/-- After the strobe of a settled state the tick is next. -/
theorem strobe_then_tick {s t : State} (hs : s.Settled) (hsl : s.sched = .sleep) (hen : strobeEnabled s = true)
    (hz : s.timerPending = 0#8) (hm : s.nextMove = .timerTick) (h : step s = .next t) : t.nextMove = .tick := by
  have he : strobeMove s.dropMove = { s.dropMove with timerPending := 1#8 } := by
    rw [strobeMove, if_pos (show strobeEnabled s.dropMove = true from hen), State.dropMove_timerPending, hz]; rfl
  rw [step_of_nextMove hm] at h
  obtain rfl : { s.dropMove with timerPending := 1#8 } = t := he.symm.trans (Host.Outcome.next.inj h)
  have ht : State.Settled { s.dropMove with timerPending := 1#8 } :=
    ⟨by simp [hs.agenda], hs.resting, hs.crossed⟩
  obtain hx | ⟨-, hnext⟩ := ht.cases
  · rw [show s.sched = .exit from hx] at hsl; cases hsl
  · rw [hnext]; simp [State.sleepMove]

/-- A tick that is enabled leaves SLEEP (R320). -/
theorem tickMove_leaves_sleep {s : State} (h : tickEnabled s = true) : (tickMove s).sched ≠ .sleep := by
  obtain ⟨hno, -⟩ | ⟨-, -, he⟩ | ⟨-, -, he⟩ := tickMove_cases s
  · rw [h] at hno; cases hno
  all_goals rw [he]; nofun

/-- Where a strobe is still pending in a settled run, the tick is next, and it leaves SLEEP. -/
theorem State.Settled.pending_leaves_sleep {s t : State} (hs : s.Settled) (hen : strobeEnabled s = true)
    (hz : ¬ s.StrobesConsumed) (h : step s = .next t) : t.sched ≠ .sleep := by
  obtain ⟨hsl, hpend⟩ : s.sched = .sleep ∧ s.timerPending ≠ 0#8 := by simpa [State.StrobesConsumed] using hz
  obtain ⟨hrun, hgo⟩ := (strobeEnabled_iff s).1 hen
  obtain hx | ⟨-, hnext⟩ := hs.cases
  · exact absurd hx hgo
  · obtain ⟨-, h0, -⟩ | ⟨-, hm⟩ := s.sleepMove_cases
    · exact absurd h0 hpend
    · rw [step_of_nextMove (hnext.trans hm)] at h
      obtain rfl := Host.Outcome.next.inj h
      exact tickMove_leaves_sleep ((tickEnabled_iff s.dropMove).2 ⟨hsl, by simp [hrun]⟩)

/-- A tick comes or is disabled: in a settled state that sleeps it is next, at once or after one strobe (R321). -/
theorem tick_comes {r : Nat → State} (hr : runsByItself r) (n : Nat) :
    ∃ k, n ≤ k ∧ ((r k).nextMove = .tick ∨ Move.enabled .tick (r k) = false) := by
  obtain ⟨k, hk, hs⟩ := settles hr n
  obtain hx | ⟨hsl, hnext⟩ := hs.cases
  · exact ⟨k, hk, .inr (by simp [Move.enabled, tickEnabled, hx])⟩
  · obtain ⟨hen, hz, hm⟩ | ⟨-, hm⟩ := (r k).sleepMove_cases
    · exact ⟨k + 1, by omega, .inl (strobe_then_tick hs hsl hen hz (hnext.trans hm) (hr k))⟩
    · exact ⟨k, hk, .inl (hnext.trans hm)⟩

/-- In a settled state whose strobes are consumed, a strobe is next or none counts. -/
theorem State.Settled.strobe_next {s : State} (hs : s.Settled) (hz : s.StrobesConsumed) :
    s.nextMove = .timerTick ∨ Move.enabled .timerTick s = false := by
  cases hen : strobeEnabled s with
  | false => exact .inr hen
  | true =>
    obtain hx | ⟨hsl, hnext⟩ := hs.cases
    · exact absurd hx ((strobeEnabled_iff s).1 hen).2
    · obtain ⟨-, -, hm⟩ | ⟨hno, -⟩ := s.sleepMove_cases
      · exact .inl (hnext.trans hm)
      · exact absurd (hz hsl) (hno hen)

/-- A strobe comes or is disabled: in the first settled state, or, where one is still pending there, in the settled state
after the next timer phase, which consumes it (R331). -/
theorem timerTick_comes {r : Nat → State} (hr : runsByItself r) (n : Nat) :
    ∃ k, n ≤ k ∧ ((r k).nextMove = .timerTick ∨ Move.enabled .timerTick (r k) = false) := by
  obtain ⟨k, hk, hs⟩ := settles hr n
  by_cases hz : (r k).StrobesConsumed
  · exact ⟨k, hk, hs.strobe_next hz⟩
  cases hen : strobeEnabled (r k) with
  | false => exact ⟨k, hk, .inr hen⟩
  | true =>
    have hawake := hs.pending_leaves_sleep hen hz (hr k)
    have ha : (r (k + 1)).env.agenda = [] := by rw [step_agenda (hr k), hs.agenda]; rfl
    obtain ⟨j, hj, hs', hz'⟩ := settles_of_agenda_nil hr (k + 1) ha
    exact ⟨j, by omega, hs'.strobe_next (hz' fun he => absurd he hawake)⟩

end Sys2Proof.Machine

open Sys2Proof.Machine

/-- Settles O41: every unending run settles again and again, and there no Core step, capture or key copy is enabled while
strobes and ticks come in turn. -/
theorem everyRunByItselfIsFair : Obligations.EveryRunByItselfIsFair := by
  intro r hr m n hm _
  obtain rfl | rfl | rfl | rfl | ⟨key, rfl⟩ := Move.obliged_cases hm
  · obtain ⟨k, hk, hs⟩ := settles hr n
    exact ⟨k, hk, .inr hs.no_core⟩
  · exact tick_comes hr n
  · exact timerTick_comes hr n
  · obtain ⟨k, hk, hs⟩ := settles hr n
    exact ⟨k, hk, .inr hs.no_snapCapture⟩
  · obtain ⟨k, hk, hs⟩ := settles hr n
    exact ⟨k, hk, .inr (hs.no_inputSync key)⟩
end

section
/-! The invariant of the legal states: what the Interpreter keeps, what the Scheduler keeps, and each agent's move. -/

namespace Sys2Proof.Machine

/-! ### The two halves of the invariant -/

/-- The half of the invariant an Interpreter step answers for: memory, return stack, `PC` and the fault record. Within a
batch it holds also between the step and the Scheduler's reaction to it. -/
structure State.InterpInv (s : State) : Prop where
  memory : Memory.wf s.mem = true
  stackLength : s.stack.length = s.cfg.stackDepth
  stackBound : s.sp ≤ s.cfg.stackDepth
  returnAddresses : ∀ w ∈ s.stack, w.toNat ≤ 0x1000
  pcBound : s.pc.toNat ≤ 0x10FE
  faultHalts : s.fault.code ≠ .none → s.run = .halted
  noFault : s.fault.code = .none → s.fault = FaultRecord.clear
  faultAddr : s.fault.code ≠ .memoryOutOfBounds → s.fault.addr = 0#17
  invalidPolicy : s.invalidSeen = true → s.cfg.invalidOpcode = .skip

/-- The half of the invariant the Scheduler answers for: `RUNSTATE`, `SCHED`, `FUSE` and `BATCH_LEFT`. -/
structure State.SchedInv (s : State) : Prop where
  unloaded : s.run = .unloaded → s.sched = .sleep ∧ s.sp = 0 ∧ s.invalidSeen = false
  configured : s.run ≠ .unloaded → configValid s.cfg = true
  halted : s.run = .halted ↔ s.sched = .exit
  exitFuse : s.sched = .exit → s.fuse = true
  batchBound : s.batchLeft ≤ s.cfg.cyclesPerTick
  batchOpen : s.sched = .batch → 0 < s.batchLeft
  batchClosed : s.sched = .sleep ∨ s.sched = .timer → s.batchLeft = 0

theorem State.inv_iff (s : State) : s.Inv ↔ s.InterpInv ∧ s.SchedInv :=
  ⟨fun h => ⟨{ h with }, { h with }⟩, fun ⟨h₁, h₂⟩ => { h₁, h₂ with }⟩

/-! ### The Interpreter's half -/

/-- What an instruction that neither calls nor returns leaves alone of the Interpreter's half of the invariant. -/
structure State.KeepsControl (s t : State) : Prop where
  sp          : t.sp = s.sp
  stack       : t.stack = s.stack
  cfg         : t.cfg = s.cfg
  run         : t.run = s.run
  fault       : t.fault = s.fault
  invalidSeen : t.invalidSeen = s.invalidSeen

theorem State.InterpInv.of_keepsControl {s t : State} (h : s.InterpInv) (hk : s.KeepsControl t)
    (hmem : Memory.wf t.mem = true) (hpc : t.pc.toNat ≤ 0x10FE) : t.InterpInv := by
  obtain ⟨hsp, hstack, hcfg, hrun, hfault, hseen⟩ := hk
  constructor
  case memory => exact hmem
  case pcBound => exact hpc
  case stackLength => rw [hstack, hcfg]; exact h.stackLength
  case stackBound => rw [hsp, hcfg]; exact h.stackBound
  case returnAddresses => rw [hstack]; exact h.returnAddresses
  case faultHalts => rw [hfault, hrun]; exact h.faultHalts
  case noFault => rw [hfault]; exact h.noFault
  case faultAddr => rw [hfault]; exact h.faultAddr
  case invalidPolicy => rw [hseen, hcfg]; exact h.invalidPolicy

theorem Fault.code_ne_none (f : Fault) : f.code ≠ .none := by cases f <;> nofun

theorem Fault.recordedAddr_eq_zero {f : Fault} (h : f.code ≠ .memoryOutOfBounds) : f.recordedAddr = 0#17 := by
  cases f with
  | memoryOutOfBounds a => exact absurd rfl h
  | stackOverflow | stackUnderflow | invalidOpcode => rfl

theorem State.InterpInv.takeFault {s : State} (h : s.InterpInv) (f : Fault) (op : Word) :
    (s.takeFault f op).InterpInv :=
  { h with
    faultHalts := fun _ => rfl
    noFault := fun hc => absurd hc f.code_ne_none
    faultAddr := Fault.recordedAddr_eq_zero }

/-- A checked operation keeps the invariant when its effect does, once the check has passed. -/
theorem State.InterpInv.of_orRaise {check : Option Fault} {s k t : State} (hs : s.InterpInv)
    (hk : check = none → k.InterpInv) (h : orRaise check s k = .next t) : t.InterpInv := by
  obtain ⟨f, -, rfl⟩ | ⟨hc, rfl⟩ := orRaise_cases h
  · exact hs.takeFault f _
  · exact hk hc

/-- A passed fetch had both bytes of its word inside memory (R113). -/
theorem State.pc_of_fetchFault_none {s : State} (h : s.fetchFault = none) : s.pc.toNat ≤ 0xFFE := by
  simp only [State.fetchFault] at h
  split at h
  · cases h
  · split at h
    · cases h
    · omega

theorem State.nextPc_toNat_le {s : State} (h : s.pc.toNat ≤ 0xFFE) : s.nextPc.toNat ≤ 0x1000 := by
  simp only [State.nextPc, BitVec.toNat_add, BitVec.toNat_ofNat]; omega

@[simp] theorem State.nextPc_afterDraw (s : State) : s.afterDraw.nextPc = s.nextPc := by
  rw [State.nextPc, State.afterDraw_pc, State.nextPc]

theorem State.skipIf_pc_toNat_le {s : State} (h : s.pc.toNat ≤ 0xFFE) (c : Bool) : (s.skipIf c).pc.toNat ≤ 0x1002 := by
  have hn := State.nextPc_toNat_le h
  rw [State.skipIf_pc]
  split
  · simp only [BitVec.toNat_add, BitVec.toNat_ofNat]; omega
  · omega

theorem addrOf_toNat (nnn : Addr12) : (addrOf nnn).toNat = nnn.toNat := by
  have := nnn.isLt
  simp only [addrOf, BitVec.toNat_setWidth]; omega

/-- `BNNN` goes to 0xFFF + 0xFF at most (R176). -/
theorem State.jumpTarget_toNat_le (s : State) (nnn : Addr12) : (s.jumpTarget nnn).toNat ≤ 0x10FE := by
  have hn := nnn.isLt
  have hv := (s.getV (s.jumpRegister nnn)).isLt
  simp only [State.jumpTarget, BitVec.toNat_add, addrOf_toNat, BitVec.toNat_setWidth]; omega

/-- A return address is one that was pushed, or 0 (R177, R178). -/
theorem State.InterpInv.stackAt_toNat_le {s : State} (h : s.InterpInv) (k : Nat) : (s.stackAt k).toNat ≤ 0x1000 := by
  rw [State.stackAt, List.getD_eq_getElem?_getD]
  cases hk : s.stack[k]? with
  | none => simp
  | some w => exact h.returnAddresses w (List.mem_of_getElem? hk)

/-- A call with room on the stack pushes the address after it, at most 0x1000 (R177). -/
theorem State.InterpInv.push {s : State} (h : s.InterpInv) (hroom : s.sp ≠ s.cfg.stackDepth) {w : Word}
    (hw : w.toNat ≤ 0x1000) : (s.push w).InterpInv :=
  { h with
    stackLength := by simpa using h.stackLength
    stackBound := by have := h.stackBound; simp only [State.push_sp, State.push_cfg]; omega
    returnAddresses := fun a ha => by
      obtain ha | rfl := List.mem_or_eq_of_mem_set ha
      · exact h.returnAddresses a ha
      · exact hw }

theorem State.InterpInv.pop {s : State} (h : s.InterpInv) : s.pop.InterpInv :=
  { h with stackBound := by have := h.stackBound; simp only [State.pop_sp, State.pop_cfg]; omega }

theorem State.InterpInv.setPc {s : State} (h : s.InterpInv) {w : Word} (hw : w.toNat ≤ 0x10FE) :
    (s.setPc w).InterpInv := { h with pcBound := hw }

/-- Every instruction that the fetch lets run keeps the Interpreter's half of the invariant. -/
theorem exec_interpInv {i : Instr} {s t : State} (hs : s.InterpInv) (hpc : s.pc.toNat ≤ 0xFFE)
    (h : exec i s = .next t) : t.InterpInv := by
  have hnext := State.nextPc_toNat_le hpc
  cases i with
  | callNnn nnn =>
    refine hs.of_orRaise (fun hroom => ?_) h
    have hsp : s.sp ≠ s.cfg.stackDepth := by simpa [State.overflowFault] using hroom
    refine (hs.push hsp hnext).setPc ?_
    rw [addrOf_toNat]; omega
  | ret => exact hs.of_orRaise (fun _ => hs.pop.setPc ((hs.stackAt_toNat_le _).trans (by decide))) h
  | drwVxVyN x y n =>
    refine hs.of_orRaise (fun _ => ?_) h
    exact hs.of_keepsControl (by constructor <;> simp) (by simpa using hs.memory) (by simp; omega)
  | ldBVx x =>
    exact hs.of_orRaise (fun _ => hs.of_keepsControl (by constructor <;> simp)
      (Memory.wf_writeBytes hs.memory _ _) (by simp; omega)) h
  | ldMemVx x =>
    exact hs.of_orRaise (fun _ => hs.of_keepsControl (by constructor <;> simp)
      (Memory.wf_storedBlock hs.memory _ _) (by simp; omega)) h
  | ldVxMem x =>
    exact hs.of_orRaise (fun _ => hs.of_keepsControl (by constructor <;> simp)
      (by simpa using hs.memory) (by simp; omega)) h
  | jpNnn nnn =>
    obtain rfl := Host.Outcome.next.inj h
    exact hs.setPc (by rw [addrOf_toNat]; omega)
  | jpV0Nnn nnn =>
    obtain rfl := Host.Outcome.next.inj h
    exact hs.setPc (s.jumpTarget_toNat_le nnn)
  | seVxNn | sneVxNn | seVxVy | sneVxVy | skpVx | sknpVx =>
    obtain rfl := Host.Outcome.next.inj h
    exact hs.of_keepsControl (by constructor <;> simp) (by simpa using hs.memory)
      ((State.skipIf_pc_toNat_le hpc _).trans (by decide))
  | _ =>
    obtain rfl := Host.Outcome.next.inj h
    exact hs.of_keepsControl (by constructor <;> simp) (by simpa using hs.memory) (by simp; omega)

theorem runFetched_interpInv {s t : State} (hs : s.InterpInv) (hpc : s.pc.toNat ≤ 0xFFE) (h : runFetched s = .next t) :
    t.InterpInv := by
  rw [runFetched_eq] at h
  cases hd : decodeWord s.fetchedWord with
  | ok i => exact exec_interpInv (i := i) hs hpc (by simpa only [hd] using h)
  | reject r =>
    have hw : invalidWord s = .next t := by simpa only [hd] using h
    cases hp : s.cfg.invalidOpcode with
    | fatal =>
      obtain rfl := Host.Outcome.next.inj ((invalidWord_fatal hp).symm.trans hw)
      exact hs.takeFault _ _
    | skip =>
      obtain rfl := Host.Outcome.next.inj ((invalidWord_skip hp).symm.trans hw)
      exact { hs with
        pcBound := (State.nextPc_toNat_le hpc).trans (by decide)
        invalidPolicy := fun _ => hp }

theorem State.InterpInv.keyWaitPoll {s : State} (hs : s.InterpInv) : s.keyWaitPoll.InterpInv := by
  obtain ⟨-, h⟩ | ⟨k, -, h⟩ := keyWaitPoll_cases s <;> rw [h] <;>
    exact hs.of_keepsControl (by constructor <;> simp) (by simpa using hs.memory) (by simpa using hs.pcBound)

theorem interpStep_interpInv {s t : State} (hs : s.InterpInv) (h : interpStep s = .next t) : t.InterpInv := by
  obtain ⟨-, hn⟩ | ⟨-, -, hn⟩ | ⟨-, -, f, -, hn⟩ | ⟨-, -, hf, hn⟩ := interpStep_cases s <;> rw [hn] at h
  · obtain rfl := Host.Outcome.next.inj h
    exact hs
  · obtain rfl := Host.Outcome.next.inj h
    exact hs.keyWaitPoll
  · obtain rfl := Host.Outcome.next.inj h
    exact hs.takeFault f _
  · exact runFetched_interpInv hs (State.pc_of_fetchFault_none hf) h

/-! ### The moves of the Core -/

theorem configValid_cyclesPerTick {c : Config} (h : configValid c = true) : 0 < c.cyclesPerTick := by
  simp only [configValid, Bool.and_eq_true, decide_eq_true_eq] at h
  omega

/-- Out of SLEEP a run is under way (R370). -/
theorem State.Inv.loaded {s : State} (h : s.Inv) (hs : s.sched ≠ .sleep) : s.run ≠ .unloaded :=
  fun hr => hs (h.unloaded hr).1

/-- Out of EXIT the Core is not HALTED (R325). -/
theorem State.Inv.not_halted {s : State} (h : s.Inv) (hs : s.sched ≠ .exit) : s.run ≠ .halted :=
  fun hr => hs (h.halted.1 hr)

theorem State.Inv.running_of_batch {s : State} (h : s.Inv) (hs : s.sched = .batch) : s.run = .running := by
  have hl := h.loaded (by simp [hs])
  have hh := h.not_halted (by simp [hs])
  cases hr : s.run <;> simp_all

/-- A batch step that faults ends the run (R323); any other leaves one step less (R320, R322). -/
theorem coreMove_inv_batch {s t : State} (hs : s.Inv) (hb : s.sched = .batch) (h : coreMove s = .next t) : t.Inv := by
  have hrun := hs.running_of_batch hb
  rw [coreMove_batch hb] at h
  obtain ⟨u, hu, rfl⟩ := onNext_eq_next h
  have hi := interpStep_interpInv (s.inv_iff.1 hs).1 hu
  have hf := interpStep_interpFrame hu
  have hcfg : configValid u.cfg = true := hf.cfg ▸ hs.configured (by simp [hrun])
  have hbound : u.batchLeft ≤ u.cfg.cyclesPerTick := by rw [hf.batchLeft, hf.cfg]; exact hs.batchBound
  obtain ⟨-, hstop, he⟩ | ⟨hgo, he⟩ := afterBatchStep_cases s u <;> rw [he, State.inv_iff]
  · have hhalt : u.run = .halted := hf.run.resolve_left (hrun ▸ hstop)
    exact ⟨{ hi with }, {
      unloaded := fun hr => absurd (hhalt.symm.trans hr) nofun
      configured := fun _ => hcfg
      halted := ⟨fun _ => rfl, fun _ => hhalt⟩
      exitFuse := fun _ => rfl
      batchBound := hbound
      batchOpen := nofun
      batchClosed := fun hc => by cases hc <;> contradiction }⟩
  · have hrun' : u.run = .running := by_contra fun hno => hgo ⟨hrun, hno⟩
    refine ⟨{ hi with }, ?_⟩
    by_cases hz : u.batchLeft - 1 = 0
    · constructor <;> simp [hrun', hz, hcfg]
    · constructor <;> simp [hrun', hz, hcfg] <;> omega

/-- The end of a run at a Fuse check, where no batch is open (R320). -/
theorem State.Inv.exitRun {s : State} (hs : s.Inv) (hr : s.run ≠ .unloaded) (hb : s.batchLeft = 0)
    (hf : s.fuse = true) : s.exitRun.Inv :=
  { hs with
    unloaded := nofun
    configured := fun _ => hs.configured hr
    halted := ⟨fun _ => rfl, fun _ => rfl⟩
    exitFuse := fun _ => hf
    batchOpen := nofun
    batchClosed := fun _ => hb
    faultHalts := fun _ => rfl }

theorem State.Inv.timerPhase {s : State} (hs : s.Inv) : s.timerPhase.Inv := { hs with }

theorem coreMove_inv_timer {s t : State} (hs : s.Inv) (ht : s.sched = .timer) (h : coreMove s = .next t) : t.Inv := by
  have hb : s.batchLeft = 0 := hs.batchClosed (.inr ht)
  have hr : s.run ≠ .unloaded := hs.loaded (by simp [ht])
  obtain ⟨hf, rfl⟩ | ⟨-, rfl⟩ := coreMove_timer_cases ht h
  · exact hs.timerPhase.exitRun hr hb hf
  · have hh : s.run ≠ .halted := hs.not_halted (by simp [ht])
    exact { hs with
      unloaded := fun h => absurd h hr
      halted := ⟨fun h => absurd h hh, nofun⟩
      exitFuse := nofun
      batchOpen := nofun
      batchClosed := fun _ => hb }

theorem coreMove_inv {s t : State} (hs : s.Inv) (h : coreMove s = .next t) : t.Inv := by
  cases hc : s.sched with
  | batch => exact coreMove_inv_batch hs hc h
  | timer => exact coreMove_inv_timer hs hc h
  | sleep => obtain rfl := Host.Outcome.next.inj ((coreMove_sleep hc).symm.trans h); exact hs
  | exit => obtain rfl := Host.Outcome.next.inj ((coreMove_exit hc).symm.trans h); exact hs

/-- A tick ends a tripped run and else opens a batch, which a valid configuration gives at least one step (R320, R373). -/
theorem tickMove_inv {s : State} (hs : s.Inv) : (tickMove s).Inv := by
  obtain ⟨-, h⟩ | ⟨hen, hf, h⟩ | ⟨hen, -, h⟩ := tickMove_cases s <;> rw [h]
  · exact hs
  · obtain ⟨hsl, hr⟩ := (tickEnabled_iff s).1 hen
    exact hs.exitRun hr (hs.batchClosed (.inl hsl)) hf
  · obtain ⟨hsl, hr⟩ := (tickEnabled_iff s).1 hen
    have hh : s.run ≠ .halted := hs.not_halted (by simp [hsl])
    exact { hs with
      unloaded := fun h => absurd h hr
      halted := ⟨fun h => absurd h hh, nofun⟩
      exitFuse := nofun
      batchBound := le_rfl
      batchOpen := fun _ => configValid_cyclesPerTick (hs.configured hr)
      batchClosed := fun hc => by cases hc <;> contradiction }

/-! ### The moves of the host -/

theorem State.resetUnder_inv (c : Config) (e : Env) : (State.resetUnder c e).Inv where
  memory := rfl
  stackLength := List.length_replicate
  stackBound := Nat.zero_le _
  returnAddresses w hw := by rw [List.eq_of_mem_replicate hw]; decide
  pcBound := show (0x200#16).toNat ≤ 0x10FE by decide
  unloaded _ := ⟨rfl, rfl, rfl⟩
  configured h := absurd rfl h
  halted := ⟨nofun, nofun⟩
  exitFuse := nofun
  batchBound := Nat.zero_le _
  batchOpen := nofun
  batchClosed _ := rfl
  faultHalts h := absurd rfl h
  noFault _ := rfl
  faultAddr _ := rfl
  invalidPolicy := nofun

theorem loadImage_inv {s : State} (image : List Byte) (hcfg : configValid s.cfg = true) : (loadImage image s).Inv :=
  { State.resetUnder_inv s.cfg s.env with
    memory := Memory.wf_loadedMemory s.cfg image
    unloaded := nofun
    configured := fun _ => hcfg
    halted := ⟨nofun, nofun⟩
    faultHalts := fun h => absurd rfl h
    exitFuse := nofun }

/-- Before a load the return stack is empty and no batch is open, so any configuration can be set (R48 IF_CFG). -/
theorem configureMove_inv {s : State} (c : Config) (hs : s.Inv) : (configureMove c s).Inv := by
  obtain ⟨hr, h⟩ | ⟨-, h⟩ := configureMove_cases c s <;> rw [h]
  · obtain ⟨hsl, hsp, hseen⟩ := hs.unloaded hr
    exact { hs with
      stackLength := List.length_replicate
      stackBound := hsp.trans_le (Nat.zero_le _)
      returnAddresses := fun w hw => by rw [List.eq_of_mem_replicate hw]; decide
      configured := fun h => absurd hr h
      batchBound := (hs.batchClosed (.inl hsl)).trans_le (Nat.zero_le _)
      invalidPolicy := fun h => absurd (hseen.symm.trans h) nofun }
  · exact hs

theorem loadMove_inv {s : State} (image : List Byte) (hs : s.Inv) : (loadMove image s).Inv := by
  obtain ⟨-, hok, h⟩ | h := loadMove_cases image s <;> rw [h]
  · obtain ⟨hcfg, -⟩ := loadReply_ok hok
    exact loadImage_inv image hcfg
  · exact hs

theorem resetMove_inv {s : State} (hs : s.Inv) : (resetMove s).Inv := by
  unfold resetMove
  split
  · exact State.resetUnder_inv s.cfg s.env
  · exact hs

theorem snapCaptureMove_inv {s : State} (hs : s.Inv) : (snapCaptureMove s).Inv := by
  unfold snapCaptureMove
  split
  · exact { hs with }
  · exact hs

theorem strobeMove_inv {s : State} (hs : s.Inv) : (strobeMove s).Inv := by
  obtain ⟨b, h⟩ := strobeMove_eq s
  rw [h]; exact { hs with }

/-- Every move of every agent keeps the legal states. -/
theorem agentMove_inv {m : Move} {s t : State} (hs : s.Inv) (h : agentMove m s = .next t) : t.Inv := by
  cases m with
  | core => exact coreMove_inv hs h
  | tick => obtain rfl := Host.Outcome.next.inj h; exact tickMove_inv hs
  | timerTick => obtain rfl := Host.Outcome.next.inj h; exact strobeMove_inv hs
  | snapCapture => obtain rfl := Host.Outcome.next.inj h; exact snapCaptureMove_inv hs
  | inputSync | setKey | snapshotRequest => obtain rfl := Host.Outcome.next.inj h; exact { hs with }
  | trip => obtain rfl := Host.Outcome.next.inj h; exact { hs with exitFuse := fun _ => rfl }
  | configure c => obtain rfl := Host.Outcome.next.inj h; exact configureMove_inv c hs
  | load image => obtain rfl := Host.Outcome.next.inj h; exact loadMove_inv image hs
  | reset => obtain rfl := Host.Outcome.next.inj h; exact resetMove_inv hs

end Sys2Proof.Machine

open Sys2Proof.Machine

/-- Settles O56: each agent's move keeps the invariant, and taking a move off the list touches no part it speaks of. -/
theorem everyStepKeepsTheInvariant : Obligations.EveryStepKeepsTheInvariant :=
  fun s _ hs h => agentMove_inv (s := s.dropMove) { hs with } h

/-- Settles O57: State.reset is the reset state under the reference configuration. -/
theorem resetMeetsTheInvariant : Obligations.ResetMeetsTheInvariant := State.resetUnder_inv _ _
end

section
/-! What a program can see (spec/10_state.md R52): each operation takes two states a program cannot tell apart to two such
states, and reads the same operands from both. -/

namespace Sys2Proof.Machine

/-! ### What is read from both states is the same -/

section reads
variable {s t : State} (h : s.SameForProgram t)
include h

theorem State.SameForProgram.getV (r : Reg) : t.getV r = s.getV r := by simp only [State.getV, h.v]

theorem State.SameForProgram.readByte (a : Nat) : t.readByte a = s.readByte a := by simp only [State.readByte, h.mem]

theorem State.SameForProgram.nextPc : t.nextPc = s.nextPc := by simp only [State.nextPc, h.pc]

theorem State.SameForProgram.fetchFault : t.fetchFault = s.fetchFault := by simp only [State.fetchFault, h.pc, h.cfg]

theorem State.SameForProgram.fetchedWord : t.fetchedWord = s.fetchedWord := by
  simp only [State.fetchedWord, h.pc, h.readByte]

theorem State.SameForProgram.shiftSource (x y : Reg) : t.shiftSource x y = s.shiftSource x y := by
  simp only [State.shiftSource, h.cfg, h.getV]

theorem State.SameForProgram.jumpTarget (nnn : Addr12) : t.jumpTarget nnn = s.jumpTarget nnn := by
  simp only [State.jumpTarget, State.jumpRegister, h.cfg, h.getV]

theorem State.SameForProgram.keyPressed (x : Reg) : t.keyPressed x = s.keyPressed x := by
  simp only [State.keyPressed, State.lowNibble, h.kp, h.getV]

theorem State.SameForProgram.fontAddress (x : Reg) : t.fontAddress x = s.fontAddress x := by
  simp only [State.fontAddress, State.lowNibble, h.cfg, h.getV]

theorem State.SameForProgram.indexSum (x : Reg) : t.indexSum x = s.indexSum x := by
  simp only [State.indexSum, h.i, h.getV]

theorem State.SameForProgram.indexAfterBlock (x : Reg) : t.indexAfterBlock x = s.indexAfterBlock x := by
  simp only [State.indexAfterBlock, h.cfg, h.i]

theorem State.SameForProgram.storedBlock (base n : Nat) : t.storedBlock base n = s.storedBlock base n := by
  induction n with
  | zero => exact h.mem
  | succ n ih => simp only [State.storedBlock, ih, h.getV]

theorem State.SameForProgram.drawn (x y : Reg) (n : BitVec 4) : t.drawn x y n = s.drawn x y n := by
  simp only [State.drawn, State.startColumn, State.startRow, h.mem, h.i, h.fb, h.getV]

theorem State.SameForProgram.drawnByte : t.drawnByte = s.drawnByte := by
  simp only [State.drawnByte, h.answers, h.draws]

theorem State.SameForProgram.stackAt (k : Nat) : t.stackAt k = s.stackAt k := by simp only [State.stackAt, h.stack]

theorem State.SameForProgram.overflowFault : t.overflowFault = s.overflowFault := by
  simp only [State.overflowFault, h.sp, h.cfg]

theorem State.SameForProgram.underflowFault : t.underflowFault = s.underflowFault := by
  simp only [State.underflowFault, h.sp]

theorem State.SameForProgram.candidateKeys : t.candidateKeys = s.candidateKeys := by
  simp only [State.candidateKeys, h.cfg, h.kp, h.wait]

end reads

/-! ### What is written to both states is the same -/

section writes
variable {s t : State} (h : s.SameForProgram t)
include h

theorem State.SameForProgram.setV (r : Reg) {b b' : Byte} (hb : b' = b) : (s.setV r b).SameForProgram (t.setV r b') :=
  { h with v := by simp only [State.setV, h.v, hb] }

theorem State.SameForProgram.setI {w w' : Word} (hw : w' = w) : (s.setI w).SameForProgram (t.setI w') :=
  { h with i := hw }

theorem State.SameForProgram.setPc {w w' : Word} (hw : w' = w) : (s.setPc w).SameForProgram (t.setPc w') :=
  { h with pc := hw }

theorem State.SameForProgram.advance : s.advance.SameForProgram t.advance := h.setPc h.nextPc

theorem State.SameForProgram.skipIf {c c' : Bool} (hc : c' = c) : (s.skipIf c).SameForProgram (t.skipIf c') := by
  subst hc
  cases c' with
  | false => exact h.advance
  | true => exact h.setPc (by rw [h.nextPc])

theorem State.SameForProgram.push {w w' : Word} (hw : w' = w) : (s.push w).SameForProgram (t.push w') :=
  { h with
    stack := by simp only [State.push_stack, h.stack, h.sp, hw]
    sp := congrArg (· + 1) h.sp }

theorem State.SameForProgram.pop : s.pop.SameForProgram t.pop := { h with sp := congrArg (· - 1) h.sp }

theorem State.SameForProgram.takeFault (f : Fault) (op op' : Word) :
    (s.takeFault f op).SameForProgram (t.takeFault f op') := { h with run := rfl }

theorem State.SameForProgram.setVFlag (x : Reg) {b b' : Byte} (hb : b' = b) {c c' : Bool} (hc : c' = c) :
    (s.setVFlag x b c).SameForProgram (t.setVFlag x b' c') := (h.setV x hb).setV Reg.vf (congrArg flagByte hc)

theorem State.SameForProgram.setVLogic (x : Reg) {b b' : Byte} (hb : b' = b) :
    (s.setVLogic x b).SameForProgram (t.setVLogic x b') := by
  unfold State.setVLogic
  rw [h.cfg]
  cases s.cfg.logicVfReset with
  | on => exact (h.setV x hb).setV Reg.vf rfl
  | off => exact h.setV x hb

theorem State.SameForProgram.setIndexFlag {n n' : Nat} (hn : n' = n) :
    (s.setIndexFlag n).SameForProgram (t.setIndexFlag n') := by
  unfold State.setIndexFlag
  rw [h.cfg]
  cases s.cfg.fx1eVf with
  | unchanged => exact h
  | overflowFff => exact h.setV Reg.vf (by rw [hn])

theorem State.SameForProgram.setFb {f f' : Frame} (hf : f' = f) : (s.setFb f).SameForProgram (t.setFb f') :=
  { h with fb := hf }

theorem State.SameForProgram.setDt {b b' : Byte} (hb : b' = b) : (s.setDt b).SameForProgram (t.setDt b') :=
  { h with dt := hb }

theorem State.SameForProgram.setSt (b b' : Byte) : (s.setSt b).SameForProgram (t.setSt b') := { h with }

theorem State.SameForProgram.loadedBlock {base base' : Nat} (hb : base' = base) (n : Nat) :
    (s.loadedBlock base n).SameForProgram (t.loadedBlock base' n) := by
  subst hb
  induction n with
  | zero => exact h
  | succ n ih => exact ih.setV _ (h.readByte _)

theorem State.SameForProgram.enterWait (x : Reg) : (s.enterWait x).SameForProgram (t.enterWait x) :=
  { h with wait := by simp only [State.enterWait_wait, h.kp] }

theorem State.SameForProgram.keepWaiting : s.keepWaiting.SameForProgram t.keepWaiting := by
  unfold State.keepWaiting
  rw [h.cfg]
  cases s.cfg.keywaitMode with
  | level => exact h
  | pressEdge => exact { h with cfg := rfl, wait := by simp only [h.wait, h.kp] }

theorem State.SameForProgram.completeWait (k : Nat) : (s.completeWait k).SameForProgram (t.completeWait k) :=
  { h with
    v := by simp only [State.completeWait, h.wait]; exact (h.setV _ rfl).v
    wait := by simp only [State.completeWait_wait, h.wait] }

theorem State.SameForProgram.keyWaitPoll : s.keyWaitPoll.SameForProgram t.keyWaitPoll := by
  unfold State.keyWaitPoll
  rw [h.candidateKeys]
  cases lowestKey s.candidateKeys with
  | none => exact h.keepWaiting
  | some k => exact h.completeWait k

theorem State.SameForProgram.afterDraw : s.afterDraw.SameForProgram t.afterDraw := by
  unfold State.afterDraw
  rw [h.answers]
  cases s.env.answers with
  | cons b rest => exact { h with answers := rfl }
  | nil => exact { h with draws := congrArg (· + 1) h.draws }

end writes

/-! ### Outcomes of a step -/

/-- A step from `s` answers two next states that a program cannot tell apart, and where it has changed `RUNSTATE` the
faults recorded have one code. -/
def SameOutcome (s : State) (o o' : Host.Outcome State Fault Refusal) : Prop :=
  ∃ s' t', o = .next s' ∧ o' = .next t' ∧ s'.SameForProgram t' ∧ (s'.run = s.run ∨ t'.fault.code = s'.fault.code)

theorem SameOutcome.next {s s' t' : State} (h : s'.SameForProgram t') (hr : s'.run = s.run) :
    SameOutcome s (.next s') (.next t') := ⟨s', t', rfl, rfl, h, .inl hr⟩

theorem SameOutcome.takeFault {s t : State} (h : s.SameForProgram t) (f : Fault) (op op' : Word) :
    SameOutcome s (.next (s.takeFault f op)) (.next (t.takeFault f op')) :=
  ⟨_, _, rfl, rfl, h.takeFault f op op', .inr rfl⟩

theorem SameOutcome.orRaise {s t k k' : State} {check check' : Option Fault} (h : s.SameForProgram t)
    (hc : check' = check) (hk : k.SameForProgram k') (hr : k.run = s.run) :
    SameOutcome s (orRaise check s k) (orRaise check' t k') := by
  subst hc
  cases check' with
  | none => exact .next hk hr
  | some f => exact .takeFault h f _ _

/-- The report of a step is seen by the program's side alone (R13). -/
theorem stepReport_same {s t s' t' : State} (h : s.SameForProgram t) (h' : s'.SameForProgram t')
    (hf : s'.run = s.run ∨ t'.fault.code = s'.fault.code) : stepReport s s' = stepReport t t' := by
  unfold stepReport
  rw [h.run, h'.run, h'.wait]
  obtain hr | hf := hf
  · rw [hr]; split <;> rfl
  · rw [hf]

theorem exec_same {s t : State} (h : s.SameForProgram t) (i : Instr) : SameOutcome s (exec i s) (exec i t) := by
  have ha := h.advance
  cases i with
  | cls => exact .next (ha.setFb rfl) rfl
  | drwVxVyN x y n =>
    exact .orRaise h (by rw [h.i]) ((ha.setFb (by rw [h.drawn])).setV _ (by rw [h.drawn])) rfl
  | jpNnn nnn => exact .next (h.setPc rfl) rfl
  | jpV0Nnn nnn => exact .next (h.setPc (h.jumpTarget nnn)) rfl
  | callNnn nnn => exact .orRaise h h.overflowFault ((h.push h.nextPc).setPc rfl) rfl
  | ret => exact .orRaise h h.underflowFault (h.pop.setPc (by rw [h.sp, h.stackAt])) rfl
  | seVxNn | sneVxNn | seVxVy | sneVxVy => exact .next (h.skipIf (by simp only [h.getV])) (by simp)
  | skpVx | sknpVx => exact .next (h.skipIf (by simp only [h.keyPressed])) (by simp)
  | ldVxNn | addVxNn | ldVxVy => exact .next (ha.setV _ (by simp only [h.getV])) rfl
  | orVxVy | andVxVy | xorVxVy => exact .next (ha.setVLogic _ (by simp only [h.getV])) (by simp)
  | addVxVy | subVxVy | subnVxVy =>
    exact .next (ha.setVFlag _ (by simp only [h.getV]) (by simp only [h.getV])) rfl
  | shrVxVy | shlVxVy =>
    exact .next (ha.setVFlag _ (by simp only [h.shiftSource]) (by simp only [h.shiftSource])) rfl
  | ldVxDt => exact .next (ha.setV _ h.dt) rfl
  | ldVxK x => exact .next (ha.enterWait x) rfl
  | ldDtVx x => exact .next (ha.setDt (h.getV x)) rfl
  | ldStVx => exact .next (ha.setSt _ _) rfl
  | rndVxNn => exact .next (h.afterDraw.advance.setV _ (by rw [h.drawnByte])) (by simp)
  | ldINnn => exact .next (ha.setI rfl) rfl
  | addIVx x => exact .next ((ha.setI (by rw [h.indexSum])).setIndexFlag (h.indexSum x)) (by simp)
  | ldFVx x => exact .next (ha.setI (h.fontAddress x)) rfl
  | ldBVx => exact .orRaise h (by rw [h.i]) { ha with mem := by simp only [h.mem, h.i, h.getV] } rfl
  | ldMemVx x =>
    exact .orRaise h (by rw [h.i])
      { ha with mem := by simp only [h.storedBlock, h.i], i := h.indexAfterBlock x } rfl
  | ldVxMem x =>
    exact .orRaise h (by rw [h.i]) ((ha.loadedBlock (by rw [h.i]) _).setI (h.indexAfterBlock x)) (by simp)

theorem runFetched_same {s t : State} (h : s.SameForProgram t) : SameOutcome s (runFetched s) (runFetched t) := by
  rw [runFetched_eq, runFetched_eq, h.fetchedWord]
  cases decodeWord s.fetchedWord with
  | ok i => exact exec_same h i
  | reject r =>
    show SameOutcome s (invalidWord s) (invalidWord t)
    cases hp : s.cfg.invalidOpcode with
    | fatal =>
      rw [invalidWord_fatal hp, invalidWord_fatal (h.cfg ▸ hp)]
      exact .takeFault h _ _ _
    | skip =>
      rw [invalidWord_skip hp, invalidWord_skip (h.cfg ▸ hp)]
      exact .next { h.advance with } rfl

theorem fetchAndRun_same {s t : State} (h : s.SameForProgram t) : SameOutcome s (fetchAndRun s) (fetchAndRun t) := by
  unfold fetchAndRun
  rw [h.fetchFault]
  cases s.fetchFault with
  | some f => exact .takeFault h f _ _
  | none => exact runFetched_same h

theorem State.run_keyWaitPoll (s : State) : s.keyWaitPoll.run = s.run := by
  obtain ⟨-, h⟩ | ⟨k, -, h⟩ := keyWaitPoll_cases s <;> rw [h] <;> simp

theorem interpStep_same {s t : State} (h : s.SameForProgram t) : SameOutcome s (interpStep s) (interpStep t) := by
  unfold interpStep
  rw [h.run, h.wait]
  cases s.run with
  | unloaded | halted => exact .next h rfl
  | running =>
    cases s.wait.active with
    | true => exact .next h.keyWaitPoll s.run_keyWaitPoll
    | false => exact fetchAndRun_same h

end Sys2Proof.Machine

open Sys2Proof.Machine

/-- Settles O59: an Interpreter step reads and writes what a program can see alike in both states, and where it faults it
records one code. -/
theorem programsSeeOnlyTheVisibleState : Obligations.ProgramsSeeOnlyTheVisibleState := by
  intro s t h
  obtain ⟨s', t', hs, ht, h', hf⟩ := interpStep_same h
  exact ⟨s', t', hs, ht, h', stepReport_same h h' hf⟩
end

section
/-! Configuration, reset, `STATUS` and the canonical form of memory. -/

namespace Sys2Proof.Machine

/-! ### Configuration (R5, R48 IF_CFG) -/

theorem coreMove_cfg {s t : State} (h : coreMove s = .next t) : t.cfg = s.cfg := by
  cases hs : s.sched with
  | batch => obtain ⟨u, hf, rfl | rfl⟩ := coreMove_batch_cases hs h <;> exact hf.cfg
  | timer => obtain ⟨-, rfl⟩ | ⟨-, rfl⟩ := coreMove_timer_cases hs h <;> rfl
  | sleep => obtain rfl := Host.Outcome.next.inj ((coreMove_sleep hs).symm.trans h); rfl
  | exit => obtain rfl := Host.Outcome.next.inj ((coreMove_exit hs).symm.trans h); rfl

theorem tickMove_cfg (s : State) : (tickMove s).cfg = s.cfg := by
  obtain ⟨-, h⟩ | ⟨-, -, h⟩ | ⟨-, -, h⟩ := tickMove_cases s <;> rw [h]
  rfl

theorem strobeMove_cfg (s : State) : (strobeMove s).cfg = s.cfg := by
  obtain ⟨b, h⟩ := strobeMove_eq s
  rw [h]

theorem snapCaptureMove_cfg (s : State) : (snapCaptureMove s).cfg = s.cfg := by
  unfold snapCaptureMove; split <;> rfl

theorem loadMove_cfg (image : List Byte) (s : State) : (loadMove image s).cfg = s.cfg := by
  obtain ⟨-, -, h⟩ | h := loadMove_cases image s <;> rw [h]
  rfl

theorem resetMove_cfg (s : State) : (resetMove s).cfg = s.cfg := by
  unfold resetMove; split <;> rfl

/-- Once a program is loaded no move of any agent changes the configuration. -/
theorem agentMove_cfg {m : Move} {s t : State} (hr : s.run ≠ .unloaded) (h : agentMove m s = .next t) :
    t.cfg = s.cfg := by
  cases m with
  | core => exact coreMove_cfg h
  | tick => obtain rfl := Host.Outcome.next.inj h; exact tickMove_cfg s
  | timerTick => obtain rfl := Host.Outcome.next.inj h; exact strobeMove_cfg s
  | snapCapture => obtain rfl := Host.Outcome.next.inj h; exact snapCaptureMove_cfg s
  | inputSync | setKey | snapshotRequest | trip => obtain rfl := Host.Outcome.next.inj h; rfl
  | configure c =>
    obtain rfl := Host.Outcome.next.inj h
    obtain ⟨hu, -⟩ | ⟨-, he⟩ := configureMove_cases c s
    · exact absurd hu hr
    · rw [he]
  | load image => obtain rfl := Host.Outcome.next.inj h; exact loadMove_cfg image s
  | reset => obtain rfl := Host.Outcome.next.inj h; exact resetMove_cfg s

/-- What a configure step of an UNLOADED core changes (R48 IF_CFG). -/
theorem onlyChanges_configure (s : State) (c : Config) (stack : List Word) :
    onlyChanges [.cfg, .stack, .agenda] s { s.dropMove with cfg := c, stack := stack } := by
  intro p hp
  cases p with
  | cfg | stack | agenda => exact absurd hp (by decide)
  | mem | v => exact fun _ => rfl
  | snap | sched | entropy => exact ⟨rfl, rfl⟩
  | _ => rfl

/-! ### Reset (R54, R370) -/

theorem Frame.pixel_blank (px py : Nat) : Frame.pixel Frame.blank px py = false := by
  unfold Frame.pixel Frame.blank
  split
  · rw [Vector.getElem_replicate, BitVec.getLsbD_zero]
  · rfl

theorem State.resetUnder_holdsResetValues (c : Config) (e : Env) : (State.resetUnder c e).HoldsResetValues where
  mem _ := rfl
  v r := Vector.getElem_replicate r.isLt
  i := rfl
  pc := rfl
  sp := rfl
  stack := rfl
  timers := ⟨rfl, rfl⟩
  wait := rfl
  run := rfl
  fault := rfl
  invalidSeen := rfl
  fb := Frame.pixel_blank
  snap := Frame.pixel_blank
  snapReq := rfl
  keys := ⟨rfl, rfl⟩
  fuse := rfl
  sched := ⟨rfl, rfl⟩
  timerPending := rfl

/-- A step that changes nothing has used up its move. -/
theorem onlyChanges_dropMove (s : State) : onlyChanges [.agenda] s s.dropMove := by
  intro p hp
  cases p with
  | agenda => exact absurd hp (by decide)
  | mem | v => exact fun _ => rfl
  | stack | snap | sched | entropy => exact ⟨rfl, rfl⟩
  | _ => rfl

/-! ### `STATUS` (R50) -/

/-- Two fields side by side, as numbers. -/
theorem toNat_append_eq_add {m n : Nat} (x : BitVec m) (y : BitVec n) : (x ++ y).toNat = 2 ^ n * x.toNat + y.toNat := by
  rw [BitVec.toNat_append, Nat.shiftLeft_eq, Nat.mul_comm, Nat.two_pow_add_eq_or_of_lt y.isLt]

/-- `STATUS` as a number: the weight of each field is its lowest bit's. -/
theorem State.statusWord_toNat (s : State) :
    s.statusWord.toNat = 256 * s.soundActive.toNat + 128 * s.invalidSeen.toNat + 16 * s.fault.code.bits.toNat +
      8 * s.fuse.toNat + 4 * s.wait.active.toNat + s.run.bits.toNat := by
  simp only [State.statusWord, toNat_append_eq_add, BitVec.toNat_ofBool, BitVec.toNat_ofNat]
  omega

theorem State.statusWord_run (s : State) : s.statusWord.toNat % 4 = s.run.bits.toNat := by
  have := s.run.bits.isLt
  rw [s.statusWord_toNat]; omega

theorem State.statusWord_faultCode (s : State) : s.statusWord.toNat / 16 % 8 = s.fault.code.bits.toNat := by
  have := s.run.bits.isLt
  have := s.fault.code.bits.isLt
  have := s.wait.active.toNat_le
  have := s.fuse.toNat_le
  rw [s.statusWord_toNat]; omega

theorem State.statusWord_toNat_lt (s : State) : s.statusWord.toNat < 512 := by
  have := s.run.bits.isLt
  have := s.fault.code.bits.isLt
  have := s.wait.active.toNat_le
  have := s.fuse.toNat_le
  have := s.invalidSeen.toNat_le
  have := s.soundActive.toNat_le
  rw [s.statusWord_toNat]; omega

/-- The fields of `STATUS` that are one bit. -/
theorem State.statusWord_getLsbD (s : State) :
    s.statusWord.getLsbD 2 = s.wait.active ∧ s.statusWord.getLsbD 3 = s.fuse ∧
    s.statusWord.getLsbD 7 = s.invalidSeen ∧ s.statusWord.getLsbD 8 = s.soundActive := by
  simp only [State.statusWord, BitVec.getLsbD_append]
  simp

theorem State.soundActive_iff (s : State) : s.soundActive = true ↔ s.st ≠ 0#8 := by simp [State.soundActive]

/-! ### The canonical form of memory (log 12) -/

/-- A listed cell is what a read of its address gives. -/
theorem Memory.get_head (a : Nat) (x : Byte) (m : List Host.Cell) : Memory.get ((a, x) :: m) a = x := if_pos rfl

theorem Memory.get_tail {a b : Nat} (h : a ≠ b) (x : Byte) (m : List Host.Cell) :
    Memory.get ((a, x) :: m) b = Memory.get m b := if_neg h

/-- An address below every listed cell reads 0, so a list in canonical form that reads as another begins at or above it. -/
theorem Memory.head_le {lo lo' : Option Nat} {a b : Nat} {x y : Byte} {m n : List Host.Cell}
    (hm : Memory.wfAbove lo ((a, x) :: m) = true) (hn : Memory.wfAbove lo' ((b, y) :: n) = true)
    (h : ∀ k, Memory.get ((a, x) :: m) k = Memory.get ((b, y) :: n) k) : b ≤ a := by
  rw [Memory.wfAbove_cons] at hm hn
  obtain ⟨-, -, hx, -⟩ := hm
  obtain ⟨-, -, -, hn⟩ := hn
  by_contra hlt
  have hz : x = 0#8 := by
    rw [← Memory.get_head a x m, h a, Memory.get_tail (by omega), Memory.get_of_not_above hn (by omega)]
  exact hx hz

theorem Memory.nil_of_get_eq_zero {lo : Option Nat} {m : List Host.Cell} (hm : Memory.wfAbove lo m = true)
    (h : ∀ k, Memory.get m k = 0#8) : m = [] := by
  cases m with
  | nil => rfl
  | cons c m =>
    obtain ⟨a, x⟩ := c
    rw [Memory.wfAbove_cons] at hm
    obtain ⟨-, -, hx, -⟩ := hm
    exact absurd ((Memory.get_head a x m).symm.trans (h a)) hx

/-- Two lists in canonical form that read alike begin with the same cell, and their tails read alike. -/
theorem Memory.eq_of_get_eq {lo lo' : Option Nat} {m n : List Host.Cell} (hm : Memory.wfAbove lo m = true)
    (hn : Memory.wfAbove lo' n = true) (h : ∀ k, Memory.get m k = Memory.get n k) : m = n := by
  induction m generalizing lo lo' n with
  | nil => exact (Memory.nil_of_get_eq_zero hn fun k => (h k).symm).symm
  | cons c m ih =>
    obtain ⟨a, x⟩ := c
    cases n with
    | nil => exact Memory.nil_of_get_eq_zero hm h
    | cons d n =>
      obtain ⟨b, y⟩ := d
      obtain rfl : a = b := le_antisymm (Memory.head_le hn hm fun k => (h k).symm) (Memory.head_le hm hn h)
      obtain rfl : x = y := by rw [← Memory.get_head a x m, h a, Memory.get_head]
      rw [Memory.wfAbove_cons] at hm hn
      obtain ⟨-, -, -, hm⟩ := hm
      obtain ⟨-, -, -, hn⟩ := hn
      rw [ih hm hn fun k => ?_]
      by_cases hk : k ≤ a
      · rw [Memory.get_of_not_above hm hk, Memory.get_of_not_above hn hk]
      · rw [← Memory.get_tail (a := a) (by omega) x m, h k, Memory.get_tail (by omega)]

end Sys2Proof.Machine

open Sys2Proof.Machine

/-- Settles O49: only a configure move writes the configuration, and it does so while UNLOADED only. -/
theorem configurationIsFixedInARun : Obligations.ConfigurationIsFixedInARun := by
  refine ⟨fun s c hm hr => ?_, fun s t h hr => agentMove_cfg (s := s.dropMove) hr h⟩
  obtain ⟨-, he⟩ | ⟨hno, -⟩ := configureMove_cases c s.dropMove
  · exact ⟨_, (step_of_nextMove hm).trans (congrArg Host.Outcome.next he), rfl, rfl, rfl, onlyChanges_configure s c _⟩
  · exact absurd hr hno

/-- Settles O52: a reset between runs gives the reset state, and one during a run is no move. -/
theorem resetValuesAreAsListed : Obligations.ResetValuesAreAsListed := by
  refine ⟨State.resetUnder_holdsResetValues _ _, by decide, fun s hm => ⟨fun hr => ?_, fun hr hs => ?_⟩⟩
  · have he : resetMove s.dropMove = State.resetUnder s.cfg s.dropMove.env := if_pos hr
    exact ⟨_, (step_of_nextMove hm).trans (congrArg Host.Outcome.next he), State.resetUnder_holdsResetValues _ _, rfl,
      ⟨rfl, rfl⟩, rfl⟩
  · have he : resetMove s.dropMove = s.dropMove := if_neg (by simp [hr, hs])
    exact ⟨_, (step_of_nextMove hm).trans (congrArg Host.Outcome.next he), onlyChanges_dropMove s⟩

/-- Settles O60, by induction on the first memory: lists in canonical form that read alike agree cell by cell. -/
theorem canonicalMemoryIsUnique : Obligations.CanonicalMemoryIsUnique := fun _ _ => Memory.eq_of_get_eq

/-- Settles O53: `STATUS` as a number gives its fields. -/
theorem statusShowsEachField : Obligations.StatusShowsEachField := by
  intro s
  obtain ⟨hwait, hfuse, hseen, hsound⟩ := s.statusWord_getLsbD
  refine ⟨?_, hwait, hfuse, ?_, hseen, ?_, s.statusWord_toNat_lt, rfl⟩
  · rw [s.statusWord_run]; cases s.run <;> rfl
  · rw [s.statusWord_faultCode]; cases s.fault.code <;> rfl
  · rw [hsound]; exact s.soundActive_iff
end

section
/-! Memory (spec/20_memory.md): the fetch checks in their order and what each records, the bytes a block store leaves for
the next fetch, and which moves write memory at all. -/

namespace Sys2Proof.Machine

/-! ### The fetch checks (R84, R301, R309) -/

theorem State.fetchFault_of_beyond {s : State} (h : 0xFFF < s.pc.toNat) :
    s.fetchFault = some (.memoryOutOfBounds (BitVec.ofNat 17 s.pc.toNat)) := if_pos h

/-- At 0xFFF the second byte of the word is the one out of range. -/
theorem State.fetchFault_of_last {s : State} (h : s.pc.toNat = 0xFFF) :
    s.fetchFault = some (.memoryOutOfBounds 0x1000#17) := by
  simp [State.fetchFault, h]

/-- Below 0xFFF both bytes are inside memory, and only the odd-PC check is left. -/
theorem State.fetchFault_of_inside {s : State} (h : s.pc.toNat < 0xFFF) :
    s.fetchFault = if s.pc.toNat % 2 = 1 ∧ s.cfg.oddPc = .fault
      then some (.memoryOutOfBounds (BitVec.ofNat 17 s.pc.toNat)) else none := by
  have hfirst : ¬ 0xFFF < s.pc.toNat := by omega
  have hsecond : ¬ 0xFFF < s.pc.toNat + 1 := by omega
  simp only [State.fetchFault, if_neg hfirst, if_neg hsecond]

theorem onlyChanges_takeFault (s : State) (f : Fault) (op : Word) : onlyChanges [.fault, .run] s (s.takeFault f op) := by
  intro p hp
  cases p with
  | fault | run => exact absurd hp (by decide)
  | mem | v => exact fun _ => rfl
  | stack | snap | sched | entropy => exact ⟨rfl, rfl⟩
  | _ => rfl

/-- A taken fault is recorded as R305 and R306 say. -/
theorem recordsFault_takeFault (s : State) (f : Fault) (op : Word) :
    recordsFault f.code op f.recordedAddr s (s.takeFault f op) := ⟨rfl, rfl, onlyChanges_takeFault s f op⟩

section fetch
variable {s : State} (hr : s.run = .running) (hw : s.wait.active = false)
include hr hw

/-- A running core with no key-wait fetches (R113). -/
theorem interpStep_of_running : interpStep s = fetchAndRun s := by simp [interpStep, hr, hw]

/-- A fetch fault is recorded with `FAULT_OP` = 0 (R305). -/
theorem interpStep_of_fetchFault {f : Fault} (hf : s.fetchFault = some f) :
    ∃ t, interpStep s = .next t ∧ recordsFault f.code 0#16 f.recordedAddr s t := by
  refine ⟨s.takeFault f 0#16, ?_, recordsFault_takeFault s f 0#16⟩
  rw [interpStep_of_running hr hw, fetchAndRun, hf]

/-- A valid word that passes the fetch checks is executed (R113). -/
theorem interpStep_of_decodeWord (hf : s.fetchFault = none) {i : Instr} (hi : decodeWord s.fetchedWord = .ok i) :
    interpStep s = exec i s := by
  rw [interpStep_of_running hr hw, fetchAndRun, hf]
  simp only [runFetched_eq, hi]

end fetch

/-! ### A block store and the next fetch (R260, R94) -/

/-- What a block store inside memory does: it runs into no fault. -/
theorem exec_ldMemVx {s : State} {x : Reg} (h : s.i.toNat + x.toNat < 0x1000) :
    exec (.ldMemVx x) s =
      .next { s.advance with mem := s.storedBlock s.i.toNat (blockCount x), i := s.indexAfterBlock x } := by
  have hcheck : rangeFault s.i.toNat (blockCount x) = none := rangeFault_none (by rw [blockCount]; omega)
  rw [exec, execLdMemVx, hcheck, orRaise_none]

/-- Each of V0 to VX stands at `I` plus its number after the store. -/
theorem readByte_exec_ldMemVx {s t : State} {x r : Reg} (hm : Memory.wf s.mem = true) (h : s.i.toNat + x.toNat < 0x1000)
    (ht : exec (.ldMemVx x) s = .next t) (hr : r.toNat ≤ x.toNat) : t.readByte (s.i.toNat + r.toNat) = s.getV r := by
  obtain rfl := Host.Outcome.next.inj ((exec_ldMemVx h).symm.trans ht)
  have hin : s.i.toNat ≤ s.i.toNat + r.toNat ∧ s.i.toNat + r.toNat < s.i.toNat + blockCount x := by
    rw [blockCount]; omega
  have hbound : s.i.toNat + blockCount x ≤ 0x1000 := by rw [blockCount]; omega
  show Memory.get (s.storedBlock s.i.toNat (blockCount x)) (s.i.toNat + r.toNat) = s.getV r
  rw [Memory.get_storedBlock hm hbound, if_pos hin, Nat.add_sub_cancel_left, BitVec.ofNat_toNat, BitVec.setWidth_eq]

/-! ### Which moves write memory (R96) -/

/-- An Interpreter step that executes no instruction leaves memory alone: it does nothing, or it polls a key-wait. -/
theorem interpStep_mem_of_not_executing {s t : State} (hn : ¬ (s.run = .running ∧ s.wait.active = false))
    (h : interpStep s = .next t) : t.mem = s.mem := by
  obtain ⟨-, he⟩ | ⟨-, -, he⟩ | ⟨hr, hw, -⟩ | ⟨hr, hw, -⟩ := interpStep_cases s
  · obtain rfl := Host.Outcome.next.inj (he.symm.trans h); rfl
  · obtain rfl := Host.Outcome.next.inj (he.symm.trans h)
    obtain ⟨-, hk⟩ | ⟨k, -, hk⟩ := keyWaitPoll_cases s <;> rw [hk] <;> simp
  · exact absurd ⟨hr, hw⟩ hn
  · exact absurd ⟨hr, hw⟩ hn

@[simp] theorem afterBatchStep_mem (s t : State) : (afterBatchStep s t).mem = t.mem := by
  obtain ⟨-, -, he⟩ | ⟨-, he⟩ := afterBatchStep_cases s t <;> rw [he]
  rfl

/-- Of the Core's moves only a batch step that executes an instruction can write memory. -/
theorem coreMove_mem {s t : State} (h : coreMove s = .next t) :
    t.mem = s.mem ∨ (s.sched = .batch ∧ s.run = .running ∧ s.wait.active = false) := by
  cases hs : s.sched with
  | batch =>
    obtain ⟨u, hu, rfl⟩ := onNext_eq_next ((coreMove_batch hs).symm.trans h)
    by_cases hx : s.run = .running ∧ s.wait.active = false
    · exact .inr ⟨rfl, hx⟩
    · exact .inl (by rw [afterBatchStep_mem, interpStep_mem_of_not_executing hx hu])
  | timer => obtain ⟨-, rfl⟩ | ⟨-, rfl⟩ := coreMove_timer_cases hs h <;> exact .inl rfl
  | sleep => obtain rfl := Host.Outcome.next.inj ((coreMove_sleep hs).symm.trans h); exact .inl rfl
  | exit => obtain rfl := Host.Outcome.next.inj ((coreMove_exit hs).symm.trans h); exact .inl rfl

theorem tickMove_mem (s : State) : (tickMove s).mem = s.mem := by
  obtain ⟨-, h⟩ | ⟨-, -, h⟩ | ⟨-, -, h⟩ := tickMove_cases s <;> rw [h]
  rfl

theorem strobeMove_mem (s : State) : (strobeMove s).mem = s.mem := by
  obtain ⟨b, h⟩ := strobeMove_eq s
  rw [h]

theorem snapCaptureMove_mem (s : State) : (snapCaptureMove s).mem = s.mem := by
  unfold snapCaptureMove; split <;> rfl

theorem configureMove_mem (c : Config) (s : State) : (configureMove c s).mem = s.mem := by
  obtain ⟨-, h⟩ | ⟨-, h⟩ := configureMove_cases c s <;> rw [h]

theorem loadMove_mem (image : List Byte) (s : State) : (loadMove image s).mem = s.mem ∨ s.run = .unloaded := by
  obtain ⟨hu, -⟩ | h := loadMove_cases image s
  · exact .inr hu
  · exact .inl (by rw [h])

/-- The moves but a reset that can write memory: an instruction's, and a load while UNLOADED. -/
theorem agentMove_mem {m : Move} {s t : State} (h : agentMove m s = .next t) (hm : m ≠ .reset) :
    t.mem = s.mem ∨ (m = .core ∧ s.sched = .batch ∧ s.run = .running ∧ s.wait.active = false) ∨
    ((∃ image, m = .load image) ∧ s.run = .unloaded) := by
  cases m with
  | core => exact (coreMove_mem h).imp_right fun hx => .inl ⟨rfl, hx⟩
  | load image =>
    obtain rfl := Host.Outcome.next.inj h
    exact (loadMove_mem image s).imp_right fun hu => .inr ⟨⟨image, rfl⟩, hu⟩
  | reset => exact absurd rfl hm
  | tick => obtain rfl := Host.Outcome.next.inj h; exact .inl (tickMove_mem s)
  | timerTick => obtain rfl := Host.Outcome.next.inj h; exact .inl (strobeMove_mem s)
  | snapCapture => obtain rfl := Host.Outcome.next.inj h; exact .inl (snapCaptureMove_mem s)
  | configure c => obtain rfl := Host.Outcome.next.inj h; exact .inl (configureMove_mem c s)
  | inputSync | setKey | snapshotRequest | trip => obtain rfl := Host.Outcome.next.inj h; exact .inl rfl

end Sys2Proof.Machine

open Sys2Proof.Machine

/-- Settles O24: the two bytes the fetch reads are two of the bytes the store has written. -/
theorem storedWordIsTheNextFetched : Obligations.StoredWordIsTheNextFetched := by
  intro s t x a b hm h ht hab hb hpc
  have hnext : t.pc.toNat + 1 = s.i.toNat + b.toNat := by omega
  rw [State.fetchedWord, hnext, hpc, readByte_exec_ldMemVx hm h ht (by omega), readByte_exec_ldMemVx hm h ht hb]
  rfl

/-- Settles O25: each range of `PC` decides the fetch check that raises, or that none does. -/
theorem fetchFaultsInOrder : Obligations.FetchFaultsInOrder := by
  intro s hr hw
  refine ⟨fun hpc => interpStep_of_fetchFault hr hw (State.fetchFault_of_beyond hpc),
    fun hpc => interpStep_of_fetchFault hr hw (State.fetchFault_of_last hpc), fun hpc hodd hpol => ?_,
    fun hpc hok i hi => ?_⟩
  · have hf := (State.fetchFault_of_inside hpc).trans (if_pos ⟨hodd, hpol⟩)
    exact interpStep_of_fetchFault hr hw hf
  · have hpass : ¬ (s.pc.toNat % 2 = 1 ∧ s.cfg.oddPc = .fault) := by
      rintro ⟨hodd, hpol⟩
      obtain heven | hallow := hok
      · omega
      · exact absurd (hpol.symm.trans hallow) (by decide)
    exact interpStep_of_decodeWord hr hw ((State.fetchFault_of_inside hpc).trans (if_neg hpass)) hi

/-- Settles O47: a byte that reads otherwise is in a memory that was written, so the move was one that writes memory. -/
theorem onlyLoadAndInstructionsWriteMemory : Obligations.OnlyLoadAndInstructionsWriteMemory := by
  intro s t a h hm hne
  obtain hmem | hwrites := agentMove_mem (s := s.dropMove) h hm
  · exact absurd (congrArg (Memory.get · a) hmem) hne
  · exact hwrites
end

section
/-! Encoding (spec/30_encoding.md): the decoder and the encoder are inverse to each other, the rows of the opcode table
are exactly the valid words, and the word that stands at `PC` is the one the next step runs. -/

namespace Sys2Proof

/-! ### Decoding an encoded instruction (R110, R114) -/

/-- The fields of an encoded word are those it was built from, and they select the instruction's own arm. -/
theorem decodeWord_encode (i : Instr) : decodeWord (encode i) = .ok i := by
  cases i with
  | cls | ret => decide
  | jpNnn | callNnn | ldINnn | jpV0Nnn => simp [encode, decodeWord]
  | seVxNn | sneVxNn | ldVxNn | addVxNn | rndVxNn => simp [encode, decodeWord]
  | seVxVy | sneVxVy | drwVxVyN => simp [encode, decodeWord]
  | ldVxVy | orVxVy | andVxVy | xorVxVy | addVxVy | subVxVy | shrVxVy | subnVxVy | shlVxVy =>
    simp [encode, decodeWord, decode8]
  | skpVx | sknpVx => simp [encode, decodeWord, decodeE]
  | ldVxDt | ldVxK | ldDtVx | ldStVx | addIVx | ldFVx | ldBVx | ldMemVx | ldVxMem =>
    simp [encode, decodeWord, decodeF]

/-- Two bytes in memory order decode to what their word decodes to (R82, R110). -/
theorem decode_bytesOfWord_append {w : Word} {i : Instr} (h : decodeWord w = .ok i) (rest : List Byte) :
    decode (bytesOfWord w ++ rest) = .ok (i, rest) := by
  simp [bytesOfWord, decode_bytes, h]

/-! ### Encoding a decoded word (R114, R116): class by class, the arm that answers fixes every bit that is no field -/

theorem encode_of_decode0 {w : Word} {i : Instr} (h : decode0 w = .ok i) : encode i = w := by
  unfold decode0 at h
  split at h
  · next hw => cases h; exact hw.symm
  · split at h
    · next hw => cases h; exact hw.symm
    · cases h

theorem encode_of_decode8 {x y : Reg} {n : BitVec 4} {i : Instr} (h : decode8 x y n = .ok i) :
    encode i = wordXYN 0x8#4 x y n := by
  unfold decode8 at h
  split at h <;> cases h
  all_goals
    next hn =>
    obtain ⟨-, rfl⟩ := BitVec.toNat_eq_nat.1 hn
    rfl

theorem encode_of_decodeE {x : Reg} {nn : Byte} {i : Instr} (h : decodeE x nn = .ok i) :
    encode i = wordXNn 0xE#4 x nn := by
  unfold decodeE at h
  split at h <;> cases h
  all_goals
    next hn =>
    obtain ⟨-, rfl⟩ := BitVec.toNat_eq_nat.1 hn
    rfl

theorem encode_of_decodeF {x : Reg} {nn : Byte} {i : Instr} (h : decodeF x nn = .ok i) :
    encode i = wordXNn 0xF#4 x nn := by
  unfold decodeF at h
  split at h <;> cases h
  all_goals
    next hn =>
    obtain ⟨-, rfl⟩ := BitVec.toNat_eq_nat.1 hn
    rfl

section layouts
variable {w : Word} {c : Nat} (hc : (fieldC w).toNat = c)
include hc

/-- A word of a known class is that class, its register and its byte. -/
theorem wordXNn_of_class : wordXNn (BitVec.ofNat 4 c) (fieldX w) (fieldNN w) = w := by
  rw [← (BitVec.toNat_eq_nat.1 hc).2, wordXNn_fields]

theorem wordXYN_of_class : wordXYN (BitVec.ofNat 4 c) (fieldX w) (fieldY w) (fieldN w) = w := by
  rw [← (BitVec.toNat_eq_nat.1 hc).2, wordXYN_fields]

theorem wordNnn_of_class : wordNnn (BitVec.ofNat 4 c) (fieldNNN w) = w := by
  rw [← (BitVec.toNat_eq_nat.1 hc).2, wordNnn_fields]

end layouts

/-- A valid word is the encoding of the instruction it decodes to. -/
theorem encode_of_decodeWord {w : Word} {i : Instr} (h : decodeWord w = .ok i) : encode i = w := by
  unfold decodeWord at h
  dsimp only at h
  split at h
  case h_1 => exact encode_of_decode0 h
  case h_2 hc | h_3 hc | h_11 hc | h_12 hc => cases h; exact wordNnn_of_class hc
  case h_4 hc | h_5 hc | h_7 hc | h_8 hc | h_13 hc => cases h; exact wordXNn_of_class hc
  case h_6 hc | h_10 hc =>
    split at h
    · next hn => cases h; rw [encode, ← hn]; exact wordXYN_of_class hc
    · cases h
  case h_9 hc => rw [encode_of_decode8 h]; exact wordXYN_of_class hc
  case h_14 hc => cases h; exact wordXYN_of_class hc
  case h_15 hc => rw [encode_of_decodeE h]; exact wordXNn_of_class hc
  case h_16 =>
    have hc : (fieldC w).toNat = 0xF := by
      have := (fieldC w).isLt
      grind
    rw [encode_of_decodeF h]
    exact wordXNn_of_class hc

/-! ### The rows of the opcode table (R114) -/

theorem OpcodeRow.matchesWord_iff (r : OpcodeRow) (w : Word) : r.matchesWord w = true ↔ w &&& r.mask = r.pattern := by
  simp [OpcodeRow.matchesWord]

namespace Laws.TableRow

/-- Every instruction's word matches its own row, and the table has the row. -/
theorem ofInstr (i : Instr) : Statement i := by
  cases i
  exacts [cls, ret, jpNnn _, callNnn _, seVxNn _ _, sneVxNn _ _, seVxVy _ _, ldVxNn _ _, addVxNn _ _, ldVxVy _ _,
    orVxVy _ _, andVxVy _ _, xorVxVy _ _, addVxVy _ _, subVxVy _ _, shrVxVy _ _, subnVxVy _ _, shlVxVy _ _, sneVxVy _ _,
    ldINnn _, jpV0Nnn _, rndVxNn _ _, drwVxVyN _ _ _, skpVx _, sknpVx _, ldVxDt _, ldVxK _, ldDtVx _, ldStVx _,
    addIVx _, ldFVx _, ldBVx _, ldMemVx _, ldVxMem _]

end Laws.TableRow

theorem row_matchesWord_of_decodeWord {w : Word} {i : Instr} (h : decodeWord w = .ok i) :
    i.row.matchesWord w = true := by
  rw [← encode_of_decodeWord h]; exact (Laws.TableRow.ofInstr i).1

/-- Two rows that a word matches agree wherever both fix a bit, which no two different rows of the table do. -/
theorem opcodeTable_disjoint {w : Word} {r q : OpcodeRow} (hr : r ∈ opcodeTable) (hq : q ∈ opcodeTable)
    (hrw : r.matchesWord w = true) (hqw : q.matchesWord w = true) : r = q := by
  have hdistinct : ∀ r ∈ opcodeTable, ∀ q ∈ opcodeTable, r.pattern &&& q.mask = q.pattern &&& r.mask → r = q := by
    decide
  rw [OpcodeRow.matchesWord_iff] at hrw hqw
  refine hdistinct r hr q hq ?_
  rw [← hrw, ← hqw, BitVec.and_assoc, BitVec.and_assoc, BitVec.and_comm q.mask]

/-! #### The fields a mask keeps are those of the pattern -/

section matching
variable {w m p : Word} (h : w &&& m = p)
include h

theorem fieldC_of_match (hm : fieldC m = 0xF#4) : fieldC w = fieldC p := by
  rw [← h, fieldC, fieldC, BitVec.extractLsb'_and, ← fieldC, ← fieldC, hm]
  exact BitVec.and_allOnes.symm

theorem fieldN_of_match (hm : fieldN m = 0xF#4) : fieldN w = fieldN p := by
  rw [← h, fieldN, fieldN, BitVec.extractLsb'_and, ← fieldN, ← fieldN, hm]
  exact BitVec.and_allOnes.symm

theorem fieldNN_of_match (hm : fieldNN m = 0xFF#8) : fieldNN w = fieldNN p := by
  rw [← h, fieldNN, fieldNN, BitVec.extractLsb'_and, ← fieldNN, ← fieldNN, hm]
  exact BitVec.and_allOnes.symm

end matching

/-- The classes a row fixes alone, with the mask 0xF000. -/
def classRows : List (BitVec 4) := [0x1#4, 0x2#4, 0x3#4, 0x4#4, 0x6#4, 0x7#4, 0xA#4, 0xB#4, 0xC#4, 0xD#4]

/-- The classes and last nibbles a row fixes, with the mask 0xF00F. -/
def nibbleRows : List (BitVec 4 × BitVec 4) :=
  [(0x5#4, 0x0#4), (0x8#4, 0x0#4), (0x8#4, 0x1#4), (0x8#4, 0x2#4), (0x8#4, 0x3#4), (0x8#4, 0x4#4), (0x8#4, 0x5#4),
   (0x8#4, 0x6#4), (0x8#4, 0x7#4), (0x8#4, 0xE#4), (0x9#4, 0x0#4)]

/-- The classes and last bytes a row fixes, with the mask 0xF0FF. -/
def byteRows : List (BitVec 4 × Byte) :=
  [(0xE#4, 0x9E#8), (0xE#4, 0xA1#8), (0xF#4, 0x07#8), (0xF#4, 0x0A#8), (0xF#4, 0x15#8), (0xF#4, 0x18#8),
   (0xF#4, 0x1E#8), (0xF#4, 0x29#8), (0xF#4, 0x33#8), (0xF#4, 0x55#8), (0xF#4, 0x65#8)]

/-- The rows of the table by what they fix: the whole word, the class, the class and the last nibble or byte. -/
theorem opcodeTable_kinds : ∀ r ∈ opcodeTable,
    (r.mask = 0xFFFF#16 ∧ (r.pattern = 0x00E0#16 ∨ r.pattern = 0x00EE#16)) ∨
    (r.mask = 0xF000#16 ∧ fieldC r.pattern ∈ classRows) ∨
    (r.mask = 0xF00F#16 ∧ (fieldC r.pattern, fieldN r.pattern) ∈ nibbleRows) ∨
    (r.mask = 0xF0FF#16 ∧ (fieldC r.pattern, fieldNN r.pattern) ∈ byteRows) := by decide

theorem decodes_of_classRows {w : Word} (h : fieldC w ∈ classRows) : ∃ i, decodeWord w = .ok i := by
  simp only [classRows, List.mem_cons, List.not_mem_nil, or_false] at h
  obtain h | h | h | h | h | h | h | h | h | h := h <;> simp [decodeWord, h]

theorem decodes_of_nibbleRows {w : Word} (h : (fieldC w, fieldN w) ∈ nibbleRows) : ∃ i, decodeWord w = .ok i := by
  simp only [nibbleRows, List.mem_cons, List.not_mem_nil, or_false, Prod.mk.injEq] at h
  obtain ⟨hc, hn⟩ | ⟨hc, hn⟩ | ⟨hc, hn⟩ | ⟨hc, hn⟩ | ⟨hc, hn⟩ | ⟨hc, hn⟩ | ⟨hc, hn⟩ | ⟨hc, hn⟩ | ⟨hc, hn⟩ | ⟨hc, hn⟩ |
    ⟨hc, hn⟩ := h <;> simp [decodeWord, decode8, hc, hn]

theorem decodes_of_byteRows {w : Word} (h : (fieldC w, fieldNN w) ∈ byteRows) : ∃ i, decodeWord w = .ok i := by
  simp only [byteRows, List.mem_cons, List.not_mem_nil, or_false, Prod.mk.injEq] at h
  obtain ⟨hc, hn⟩ | ⟨hc, hn⟩ | ⟨hc, hn⟩ | ⟨hc, hn⟩ | ⟨hc, hn⟩ | ⟨hc, hn⟩ | ⟨hc, hn⟩ | ⟨hc, hn⟩ | ⟨hc, hn⟩ | ⟨hc, hn⟩ |
    ⟨hc, hn⟩ := h <;> simp [decodeWord, decodeE, decodeF, hc, hn]

/-- The decoder leaves no row of the table out. -/
theorem decodes_of_matchesWord {w : Word} {r : OpcodeRow} (hr : r ∈ opcodeTable) (h : r.matchesWord w = true) :
    ∃ i, decodeWord w = .ok i := by
  rw [OpcodeRow.matchesWord_iff] at h
  obtain ⟨hm, hp⟩ | ⟨hm, hp⟩ | ⟨hm, hp⟩ | ⟨hm, hp⟩ := opcodeTable_kinds r hr <;> rw [hm] at h
  · obtain rfl : w = r.pattern := BitVec.and_allOnes.symm.trans h
    obtain hw | hw := hp <;> rw [hw]
    · exact ⟨.cls, rfl⟩
    · exact ⟨.ret, rfl⟩
  · exact decodes_of_classRows (by rwa [fieldC_of_match h rfl])
  · exact decodes_of_nibbleRows (by rwa [fieldC_of_match h rfl, fieldN_of_match h rfl])
  · exact decodes_of_byteRows (by rwa [fieldC_of_match h rfl, fieldNN_of_match h rfl])

end Sys2Proof

namespace Sys2Proof.Machine

/-! ### The decoded instruction is what a Core step runs (R113, R320, R323) -/

/-- The bytes at `PC` decode to what the fetched word decodes to (R82). -/
theorem decode_fetchBytes_ok (s : State) (i : Instr) :
    decode s.fetchBytes = .ok (i, []) ↔ decodeWord s.fetchedWord = .ok i := by
  rw [decode_fetchBytes]
  cases decodeWord s.fetchedWord <;> simp

/-- A Core move that fetches executes the decoded instruction, and the Scheduler goes on from its outcome. -/
theorem step_of_fetchesNext {s : State} {i : Instr} (h : s.FetchesNext) (hi : decodeWord s.fetchedWord = .ok i) :
    step s = onNext (exec i s.dropMove) (afterBatchStep s.dropMove) := by
  obtain ⟨hrun, hwait, hbatch, hcore, hfetch⟩ := h
  have hinterp : interpStep s.dropMove = exec i s.dropMove :=
    interpStep_of_decodeWord (s := s.dropMove) hrun hwait hfetch hi
  rw [step_of_nextMove hcore, ← hinterp]
  exact coreMove_batch hbatch

/-! ### A word placed at `PC` is the one fetched (log 6) -/

/-- The readied state stands at `PC` where that could be fetched from, else at 0x200, which always can. -/
theorem State.fetchFault_readyToRun (s : State) (w : Word) : (s.readyToRun w).fetchFault = none := by
  by_cases hf : s.fetchFault = none
  · have hpc : (s.readyToRun w).pc = s.pc := if_pos hf
    rw [← hf, State.fetchFault, hpc]
    rfl
  · have hpc : (s.readyToRun w).pc = 0x200#16 := if_neg hf
    rw [State.fetchFault, hpc]
    rfl

theorem State.readyToRun_mem (s : State) (w : Word) :
    (s.readyToRun w).mem = Memory.writeBytes s.mem (s.readyToRun w).pc.toNat (bytesOfWord w) := rfl

/-- The word written at `PC` is the one fetched from there (R82). -/
theorem State.fetchedWord_readyToRun {s : State} (hm : Memory.wf s.mem = true) (w : Word) :
    (s.readyToRun w).fetchedWord = w := by
  have hpc : (s.readyToRun w).pc.toNat ≤ 0xFFE := State.pc_of_fetchFault_none (s.fetchFault_readyToRun w)
  have hlen : (bytesOfWord w).length = 2 := rfl
  have hread (k : Nat) (hk : k < 2) :
      (s.readyToRun w).readByte ((s.readyToRun w).pc.toNat + k) = (bytesOfWord w).getD k 0#8 := by
    rw [State.readByte, State.readyToRun_mem, Memory.get_writeBytes hm (by omega), if_pos (by omega),
      Nat.add_sub_cancel_left]
  exact (congrArg₂ wordOfBytes (hread 0 (by decide)) (hread 1 (by decide))).trans (wordOfBytes_bytesOfWord w)

/-- The placed word's state is the readied one with the Core's move first. -/
theorem State.withFetchWord_eq (s : State) (w : Word) :
    s.withFetchWord 16 w.toNat = (s.readyToRun w).scheduleFirst .core := by
  rw [State.withFetchWord, Nat.mod_eq_of_lt w.isLt, BitVec.ofNat_toNat, BitVec.setWidth_eq]

theorem State.fetchesNext_withFetchWord (s : State) (w : Word) : (s.withFetchWord 16 w.toNat).FetchesNext := by
  rw [State.withFetchWord_eq]
  exact ⟨rfl, rfl, rfl, rfl, s.fetchFault_readyToRun w⟩

end Sys2Proof.Machine

open Sys2Proof Sys2Proof.Machine

/-- Settles O31: the two bytes of the encoding decode to what the encoded word decodes to. -/
theorem decodeOfEncodeIsTheInstruction : Obligations.DecodeOfEncodeIsTheInstruction :=
  fun i rest => decode_bytesOfWord_append (decodeWord_encode i) rest

/-- Settles O32: class by class, the decoder fixes every bit of the word that is no field. -/
theorem encodeOfDecodeIsTheWord : Obligations.EncodeOfDecodeIsTheWord := fun _ _ => encode_of_decodeWord

/-- Settles O33: a valid word matches the row of the instruction it is the encoding of, and no row is left out. -/
theorem validWordsMatchExactlyOneRow : Obligations.ValidWordsMatchExactlyOneRow := by
  refine ⟨fun w => ⟨?_, ?_⟩, fun _ _ _ => opcodeTable_disjoint, fun _ _ => row_matchesWord_of_decodeWord⟩
  · rintro ⟨i, hi⟩
    exact ⟨i.row, (Laws.TableRow.ofInstr i).2, row_matchesWord_of_decodeWord hi⟩
  · rintro ⟨r, hr, hm⟩
    exact decodes_of_matchesWord hr hm

/-- Settles O55: the placed word is fetched, so the step that fetches runs its instruction. -/
theorem placedWordRunsNext : Obligations.PlacedWordRunsNext := by
  intro s w i hm hi
  have hnext := s.fetchesNext_withFetchWord w
  have hword : decodeWord (s.withFetchWord 16 w.toNat).fetchedWord = .ok i := by
    rw [State.withFetchWord_eq]
    exact (congrArg decodeWord (State.fetchedWord_readyToRun hm w)).trans hi
  refine ⟨hnext, (decode_fetchBytes_ok _ _).2 hword, ?_⟩
  rw [step_of_fetchesNext hnext hword, State.withFetchWord_eq, State.dropMove_scheduleFirst]

/-- Settles O29: the Scheduler counts the step, or trips the Fuse and exits where the instruction left RUNNING. -/
theorem stepRunsTheDecodedInstruction : Obligations.StepRunsTheDecodedInstruction := by
  intro s t i hs hi ht
  have hstep : step s = .next (afterBatchStep s.dropMove t) := by
    rw [step_of_fetchesNext hs ((decode_fetchBytes_ok s i).1 hi), ht, onNext]
  rw [hstep]
  obtain ⟨-, hhalted, ha⟩ | ⟨hok, ha⟩ := afterBatchStep_cases s.dropMove t <;> rw [ha]
  · exact ⟨fun hr => absurd hr hhalted, fun _ => rfl⟩
  · exact ⟨fun _ => rfl, fun hr => absurd ⟨hs.running, hr⟩ hok⟩

/-- Settles O30: the nine words are evaluated. -/
theorem referenceWordsDecode : Obligations.ReferenceWordsDecode := by
  unfold Obligations.ReferenceWordsDecode
  decide
end

section
/-! Load, arithmetic, bitwise and shift instructions (spec/40_load_arith.md): the number of a word fixes its instruction, and
each of the three register writes (plain, with a flag, of a logic result) has its values and its frame. -/

namespace Sys2Proof.Machine

/-! ### Words by their numbers (R111, R114) -/

/-- A pattern `C X Y N` of R114, with `C` and `N` given, is its instruction's word. -/
theorem wordDecodesTo_of_encode_wordXYN {c x y n : BitVec 4} {base : Nat} {i : Instr} (h : encode i = wordXYN c x y n)
    (hbase : base = 0x1000 * c.toNat + n.toNat) : wordDecodesTo (base + 0x100 * x.toNat + 0x10 * y.toNat) i := by
  have hw : base + 0x100 * x.toNat + 0x10 * y.toNat =
      0x1000 * c.toNat + 0x100 * x.toNat + 0x10 * y.toNat + n.toNat := by omega
  rw [wordDecodesTo, hw, ← wordXYN_eq_ofNat, ← h, decodeWord_encode]

/-- A pattern `C X NN` of R114, with `C` given, is its instruction's word. -/
theorem wordDecodesTo_of_encode_wordXNn {c x : BitVec 4} {nn : Byte} {base : Nat} {i : Instr}
    (h : encode i = wordXNn c x nn) (hbase : base = 0x1000 * c.toNat) :
    wordDecodesTo (base + 0x100 * x.toNat + nn.toNat) i := by
  rw [wordDecodesTo, hbase, ← wordXNn_eq_ofNat, ← h, decodeWord_encode]

/-! ### The frame of a register write (R113, R141) -/

theorem changesRegistersOnly_advance (s : State) : changesRegistersOnly s s.advance := by
  refine ⟨rfl, fun p hp => ?_⟩
  cases p with
  | v | pc => exact absurd hp (by decide)
  | mem => exact fun _ => rfl
  | stack | snap | sched | entropy => exact ⟨rfl, rfl⟩
  | _ => rfl

/-- A register write stays inside the frame. -/
theorem changesRegistersOnly.setV {s t : State} (h : changesRegistersOnly s t) (x : Reg) (b : Byte) :
    changesRegistersOnly s (t.setV x b) := by
  obtain ⟨hpc, hframe⟩ := h
  refine ⟨hpc, fun p hp => ?_⟩
  cases p with
  | v => exact absurd hp (by decide)
  | _ => exact hframe _ hp

theorem changesRegistersOnly.setVFlag {s t : State} (h : changesRegistersOnly s t) (x : Reg) (b : Byte) (c : Bool) :
    changesRegistersOnly s (t.setVFlag x b c) := (h.setV x b).setV Reg.vf (flagByte c)

theorem changesRegistersOnly.setVLogic {s t : State} (h : changesRegistersOnly s t) (x : Reg) (b : Byte) :
    changesRegistersOnly s (t.setVLogic x b) := by
  unfold State.setVLogic
  split
  · exact (h.setV x b).setV Reg.vf 0#8
  · exact h.setV x b

theorem onlyRegisters_advance_setV (s : State) (x : Reg) (b : Byte) : onlyRegisters [x] s (s.advance.setV x b) := by
  intro r hr
  rw [State.getV_setV, if_neg (List.ne_of_not_mem_cons hr)]
  rfl

theorem onlyRegisters_advance_setVFlag (s : State) (x : Reg) (b : Byte) (c : Bool) :
    onlyRegisters [x, Reg.vf] s (s.advance.setVFlag x b c) := by
  intro r hr
  have hx : r ≠ x := List.ne_of_not_mem_cons hr
  have hf : r ≠ Reg.vf := List.ne_of_not_mem_cons (List.not_mem_of_not_mem_cons hr)
  rw [State.getV_setVFlag, if_neg hf, if_neg hx]
  rfl

/-! ### A result and its flag (R141) -/

theorem State.getV_setVFlag_dest {x : Reg} (hx : x ≠ Reg.vf) (s : State) (b : Byte) (c : Bool) :
    (s.setVFlag x b c).getV x = b := by rw [State.getV_setVFlag, if_neg hx, if_pos rfl]

theorem State.getV_setVFlag_vf (s : State) (x : Reg) (b : Byte) (c : Bool) :
    (s.setVFlag x b c).getV Reg.vf = flagByte c := by rw [State.getV_setVFlag, if_pos rfl]

theorem carryFlag_eq_true_iff (a b : Byte) : carryFlag a b = true ↔ 255 < a.toNat + b.toNat := decide_eq_true_iff

theorem notBorrowFlag_eq_true_iff (a b : Byte) : notBorrowFlag a b = true ↔ b.toNat ≤ a.toNat := decide_eq_true_iff

theorem flagByte_toNat (c : Bool) : (flagByte c).toNat = c.toNat := by cases c <;> rfl

theorem flagByte_shiftedOutRight_toNat (b : Byte) : (flagByte (shiftedOutRight b)).toNat = b.toNat % 2 := by
  rw [flagByte_toNat, shiftedOutRight, BitVec.getLsbD, Nat.toNat_testBit, pow_zero, Nat.div_one]

theorem flagByte_shiftedOutLeft_toNat (b : Byte) : (flagByte (shiftedOutLeft b)).toNat = b.toNat / 128 := by
  have hb : b.toNat < 256 := b.isLt
  rw [flagByte_toNat, shiftedOutLeft, BitVec.getLsbD, Nat.toNat_testBit]
  omega

/-- The source of a shift, under either value of `SHIFT_SRC` (R149, R151). -/
theorem State.shiftSource_toNat {s : State} {x y : Reg} {src : Nat}
    (h : (s.cfg.shiftSrc = .vy ∧ src = (s.getV y).toNat) ∨ (s.cfg.shiftSrc = .vx ∧ src = (s.getV x).toNat)) :
    (s.shiftSource x y).toNat = src := by
  obtain ⟨hc, rfl⟩ | ⟨hc, rfl⟩ := h <;> rw [State.shiftSource, hc]

/-- The effect of a subtraction `a - b` with NOT borrow as its flag (R148, R150). -/
theorem advance_setVFlag_sub (s : State) (x : Reg) (a b : Byte) :
    let t := s.advance.setVFlag x (a - b) (notBorrowFlag a b)
    changesRegistersOnly s t ∧ onlyRegisters [x, Reg.vf] s t ∧
      (x ≠ Reg.vf → (t.getV x).toNat = (a.toNat + 256 - b.toNat) % 256) ∧
      (b.toNat ≤ a.toNat → t.getV Reg.vf = 1#8) ∧ (a.toNat < b.toNat → t.getV Reg.vf = 0#8) := by
  refine ⟨(changesRegistersOnly_advance s).setVFlag _ _ _, onlyRegisters_advance_setVFlag _ _ _ _, fun hx => ?_,
    fun h => ?_, fun h => ?_⟩
  · have hb : b.toNat < 256 := b.isLt
    rw [State.getV_setVFlag_dest hx, BitVec.toNat_sub]
    omega
  · rw [State.getV_setVFlag_vf, (notBorrowFlag_eq_true_iff a b).2 h]
    rfl
  · have hborrow : notBorrowFlag a b = false :=
      Bool.eq_false_iff.2 (mt (notBorrowFlag_eq_true_iff a b).1 (Nat.not_le.2 h))
    rw [State.getV_setVFlag_vf, hborrow]
    rfl

end Sys2Proof.Machine

open Sys2Proof Sys2Proof.Machine

/-- Settles O1: both loads write one register after the advance. -/
theorem loadsWriteOneRegister : Obligations.LoadsWriteOneRegister := by
  intro s x y nn
  have hload (b : Byte) : (s.advance.setV x b).getV x = b ∧ onlyRegisters [x] s (s.advance.setV x b) ∧
      changesRegistersOnly s (s.advance.setV x b) :=
    ⟨by rw [State.getV_setV, if_pos rfl], onlyRegisters_advance_setV s x b, (changesRegistersOnly_advance s).setV x b⟩
  exact ⟨wordDecodesTo_of_encode_wordXNn rfl rfl, ⟨_, rfl, hload nn⟩,
    wordDecodesTo_of_encode_wordXYN rfl rfl, ⟨_, rfl, hload (s.getV y)⟩⟩

/-- Settles O2: the sum of two bytes is their sum modulo 256, and the one write is that of VX. -/
theorem addImmediateWrapsWithoutFlag : Obligations.AddImmediateWrapsWithoutFlag := by
  intro s x nn
  refine ⟨wordDecodesTo_of_encode_wordXNn rfl rfl, _, rfl, ?_, onlyRegisters_advance_setV s x _,
    (changesRegistersOnly_advance s).setV x _⟩
  rw [State.getV_setV, if_pos rfl, BitVec.toNat_add]

/-- Settles O3: the three operations differ in the byte they write, not in how `setVLogic` writes it. -/
theorem logicClearsFlagAsConfigured : Obligations.LogicClearsFlagAsConfigured := by
  intro s x y
  have hlogic (b : Byte) : changesRegistersOnly s (s.advance.setVLogic x b) ∧
      ∀ r, (s.advance.setVLogic x b).getV r = if r = Reg.vf ∧ s.cfg.logicVfReset = .on then 0#8
        else if r = x then b else s.getV r :=
    ⟨(changesRegistersOnly_advance s).setVLogic x b, fun r => s.advance.getV_setVLogic x r b⟩
  exact ⟨wordDecodesTo_of_encode_wordXYN rfl rfl, ⟨_, rfl, hlogic _⟩,
    wordDecodesTo_of_encode_wordXYN rfl rfl, ⟨_, rfl, hlogic _⟩,
    wordDecodesTo_of_encode_wordXYN rfl rfl, ⟨_, rfl, hlogic _⟩⟩

/-- Settles O4: the flag, written last, compares the true sum with 255. -/
theorem addSetsCarry : Obligations.AddSetsCarry := by
  intro s x y
  refine ⟨wordDecodesTo_of_encode_wordXYN rfl rfl, _, rfl, (changesRegistersOnly_advance s).setVFlag _ _ _,
    onlyRegisters_advance_setVFlag _ _ _ _, fun hx => ?_, fun h => ?_, fun h => ?_⟩
  · rw [State.getV_setVFlag_dest hx, BitVec.toNat_add]
  · rw [State.getV_setVFlag_vf, (carryFlag_eq_true_iff _ _).2 h]
    rfl
  · have hcarry : carryFlag (s.getV x) (s.getV y) = false :=
      Bool.eq_false_iff.2 (mt (carryFlag_eq_true_iff _ _).1 (Nat.not_lt.2 h))
    rw [State.getV_setVFlag_vf, hcarry]
    rfl

/-- Settles O5: the two subtractions are one, with the operands exchanged. -/
theorem subtractionsSetNotBorrow : Obligations.SubtractionsSetNotBorrow := fun s x y =>
  ⟨wordDecodesTo_of_encode_wordXYN rfl rfl, ⟨_, rfl, advance_setVFlag_sub s x (s.getV x) (s.getV y)⟩,
    wordDecodesTo_of_encode_wordXYN rfl rfl, ⟨_, rfl, advance_setVFlag_sub s x (s.getV y) (s.getV x)⟩⟩

/-- Settles O6: a shift by one halves or doubles the source, and the flag is its lowest or highest bit. -/
theorem shiftsMoveOneBitOut : Obligations.ShiftsMoveOneBitOut := by
  intro s x y src hsrc
  have hs : (s.shiftSource x y).toNat = src := State.shiftSource_toNat hsrc
  refine ⟨wordDecodesTo_of_encode_wordXYN rfl rfl, ⟨_, rfl, (changesRegistersOnly_advance s).setVFlag _ _ _,
      onlyRegisters_advance_setVFlag _ _ _ _, fun hx => ?_, ?_⟩,
    wordDecodesTo_of_encode_wordXYN rfl rfl, ⟨_, rfl, (changesRegistersOnly_advance s).setVFlag _ _ _,
      onlyRegisters_advance_setVFlag _ _ _ _, fun hx => ?_, ?_⟩⟩
  · rw [State.getV_setVFlag_dest hx, BitVec.toNat_ushiftRight, hs, Nat.shiftRight_one]
  · rw [State.getV_setVFlag_vf, flagByte_shiftedOutRight_toNat, hs]
  · rw [State.getV_setVFlag_dest hx, BitVec.toNat_shiftLeft, hs, Nat.shiftLeft_eq, pow_one]
  · rw [State.getV_setVFlag_vf, flagByte_shiftedOutLeft_toNat, hs]
end

section
/-! Control flow (spec/41_control_flow.md): a skip or a jump is a write of `PC`; a call and a return are a move of the
return stack and then a write of `PC`, or the fault their check raises. -/

namespace Sys2Proof.Machine

/-! ### Frames of `PC` and of the return stack (R34, R35) -/

theorem onlyChanges_refl (s : State) : onlyChanges [] s s := by
  intro p _
  cases p with
  | mem | v => exact fun _ => rfl
  | stack | snap | sched | entropy => exact ⟨rfl, rfl⟩
  | _ => rfl

/-- A write of `PC` adds `PC` to what changes. -/
theorem onlyChanges.setPc {ps : List Part} {s t : State} (h : onlyChanges ps s t) (w : Word) :
    onlyChanges (ps ++ [.pc]) s (t.setPc w) := by
  intro p hp
  have hps : p ∉ ps := fun hmem => hp (List.mem_append_left _ hmem)
  cases p with
  | pc => exact absurd (List.mem_append_right ps (List.mem_singleton_self _)) hp
  | _ => exact h _ hps

theorem onlyChanges_setPc (s : State) (w : Word) : onlyChanges [.pc] s (s.setPc w) := (onlyChanges_refl s).setPc w

/-- Any write of the return stack: a push, a pop. -/
theorem onlyChanges_stack (s : State) (entries : List Word) (depth : Nat) :
    onlyChanges [.stack] s { s with stack := entries, sp := depth } := by
  intro p hp
  cases p with
  | stack => exact absurd hp (by decide)
  | mem | v => exact fun _ => rfl
  | snap | sched | entropy => exact ⟨rfl, rfl⟩
  | _ => rfl

theorem onlyChanges_push (s : State) (w : Word) : onlyChanges [.stack] s (s.push w) := onlyChanges_stack s _ _

theorem onlyChanges_pop (s : State) : onlyChanges [.stack] s s.pop := onlyChanges_stack s _ _

/-! ### Skips (R170 to R173) -/

/-- A skip is one write of `PC`. -/
theorem State.skipIf_eq_setPc (s : State) (c : Bool) :
    s.skipIf c = s.setPc (if c then s.pc + 4#16 else s.pc + 2#16) := by
  cases c with
  | true => exact congrArg s.setPc (BitVec.add_assoc s.pc 2#16 2#16)
  | false => rfl

/-- A skip taken on equality. -/
theorem skipIf_beq_effect (s : State) (a b : Byte) : onlyChanges [.pc] s (s.skipIf (a == b)) ∧
    (s.skipIf (a == b)).pc = if a = b then s.pc + 4#16 else s.pc + 2#16 := by
  rw [State.skipIf_eq_setPc]
  exact ⟨onlyChanges_setPc s _, by simp only [State.setPc_pc, beq_iff_eq]⟩

/-- A skip taken on inequality. -/
theorem skipIf_bne_effect (s : State) (a b : Byte) : onlyChanges [.pc] s (s.skipIf (a != b)) ∧
    (s.skipIf (a != b)).pc = if a = b then s.pc + 2#16 else s.pc + 4#16 := by
  rw [State.skipIf_eq_setPc]
  exact ⟨onlyChanges_setPc s _, by simp only [State.setPc_pc, bne_iff_ne, ne_eq, ite_not]⟩

/-! ### Jumps (R175, R176) -/

/-- A pattern `C NNN` of R114, with `C` given, is its instruction's word. -/
theorem wordDecodesTo_of_encode_wordNnn {c : BitVec 4} {nnn : Addr12} {base : Nat} {i : Instr}
    (h : encode i = wordNnn c nnn) (hbase : base = 0x1000 * c.toNat) : wordDecodesTo (base + nnn.toNat) i := by
  rw [wordDecodesTo, hbase, ← wordNnn_eq_ofNat, ← h, decodeWord_encode]

/-- The target of `BNNN` is the true sum: an address and a byte stay below 2^16 together. -/
theorem State.jumpTarget_toNat (s : State) (nnn : Addr12) :
    (s.jumpTarget nnn).toNat = nnn.toNat + (s.getV (s.jumpRegister nnn)).toNat := by
  have hn := nnn.isLt
  have hv := (s.getV (s.jumpRegister nnn)).isLt
  rw [State.jumpTarget, BitVec.toNat_add, addrOf_toNat, BitVec.toNat_setWidth]
  omega

/-! ### The return stack (R35, R177, R178) -/

theorem State.stackAt_push_self {s : State} (h : s.sp < s.stack.length) (w : Word) : (s.push w).stackAt s.sp = w := by
  rw [State.stackAt, State.push_stack, List.getD_eq_getElem?_getD, List.getElem?_set_self h, Option.getD_some]

theorem State.stackAt_push_of_ne {s : State} {k : Nat} (h : k ≠ s.sp) (w : Word) :
    (s.push w).stackAt k = s.stackAt k := by
  rw [State.stackAt, State.push_stack, List.getD_eq_getElem?_getD, List.getElem?_set_ne h.symm,
    ← List.getD_eq_getElem?_getD, ← State.stackAt]

theorem exec_callNnn_of_room {s : State} (h : s.sp < s.cfg.stackDepth) (nnn : Addr12) :
    exec (.callNnn nnn) s = .next ((s.push s.nextPc).setPc (addrOf nnn)) := by
  rw [exec, execCallNnn, State.overflowFault, if_neg (Nat.ne_of_lt h), orRaise_none]

theorem exec_callNnn_of_full {s : State} (h : s.sp = s.cfg.stackDepth) (nnn : Addr12) :
    exec (.callNnn nnn) s = .next (s.takeFault .stackOverflow s.fetchedWord) := by
  rw [exec, execCallNnn, State.overflowFault, if_pos h, orRaise_some]

theorem exec_ret_of_pos {s : State} (h : 0 < s.sp) : exec .ret s = .next (s.pop.setPc (s.stackAt (s.sp - 1))) := by
  rw [exec, execRet, State.underflowFault, if_neg (Nat.ne_of_gt h), orRaise_none]

theorem exec_ret_of_empty {s : State} (h : s.sp = 0) :
    exec .ret s = .next (s.takeFault .stackUnderflow s.fetchedWord) := by
  rw [exec, execRet, State.underflowFault, if_pos h, orRaise_some]

/-- A return from a state whose return stack is as a push left it takes the word pushed. -/
theorem exec_ret_after_push {s u : State} {w : Word} (hroom : s.sp < s.stack.length) (hsp : u.sp = s.sp + 1)
    (hstack : u.stack = (s.push w).stack) : exec .ret u = .next (u.pop.setPc w) := by
  have hpos : 0 < u.sp := by omega
  have htop : u.stackAt (u.sp - 1) = w := by
    rw [hsp, Nat.add_sub_cancel, State.stackAt, hstack]
    exact State.stackAt_push_self hroom w
  rw [exec_ret_of_pos hpos, htop]

end Sys2Proof.Machine

open Sys2Proof Sys2Proof.Machine

/-- Settles O10: the return pops what the call pushed, and neither touches another entry. -/
theorem returnPopsOrUnderflows : Obligations.ReturnPopsOrUnderflows := by
  refine ⟨decodeWord_encode .ret, fun s => ⟨fun hpos => ?_, fun hempty => ?_⟩, ?_⟩
  · exact ⟨_, exec_ret_of_pos hpos, rfl, rfl, rfl, (onlyChanges_pop s).setPc _⟩
  · exact ⟨_, exec_ret_of_empty hempty, recordsFault_takeFault s .stackUnderflow _⟩
  · intro s t u nnn hlen hroom hcall hsp hstack
    obtain rfl := Host.Outcome.next.inj ((exec_callNnn_of_room hroom nnn).symm.trans hcall)
    refine ⟨_, exec_ret_after_push (hlen ▸ hroom) hsp hstack, rfl, ?_, fun k hk => ?_⟩
    · rw [State.setPc_sp, State.pop_sp, hsp, State.setPc_sp, State.push_sp, Nat.add_sub_cancel]
    · rw [State.stackAt, State.setPc_stack, State.pop_stack, hstack]
      exact State.stackAt_push_of_ne hk _

/-- Settles O7: the four skips differ in the comparison, not in what they write. -/
theorem skipsMoveOnlyThePc : Obligations.SkipsMoveOnlyThePc := fun s x y nn =>
  ⟨wordDecodesTo_of_encode_wordXNn rfl rfl, ⟨_, rfl, skipIf_beq_effect s (s.getV x) nn⟩,
    wordDecodesTo_of_encode_wordXNn rfl rfl, ⟨_, rfl, skipIf_bne_effect s (s.getV x) nn⟩,
    wordDecodesTo_of_encode_wordXYN rfl rfl, ⟨_, rfl, skipIf_beq_effect s (s.getV x) (s.getV y)⟩,
    wordDecodesTo_of_encode_wordXYN rfl rfl, ⟨_, rfl, skipIf_bne_effect s (s.getV x) (s.getV y)⟩⟩

/-- Settles O8: both jumps write `PC` only, and `JUMP_OFFSET_REG` chooses the register of the sum. -/
theorem jumpsGoToTheirTargets : Obligations.JumpsGoToTheirTargets := by
  intro s nnn
  refine ⟨wordDecodesTo_of_encode_wordNnn rfl rfl, ⟨_, rfl, addrOf_toNat nnn, onlyChanges_setPc s _⟩,
    wordDecodesTo_of_encode_wordNnn rfl rfl, ⟨_, rfl, onlyChanges_setPc s _, fun hreg => ?_, fun hreg => ?_⟩⟩
  all_goals rw [State.setPc_pc, State.jumpTarget_toNat, State.jumpRegister, hreg]

/-- Settles O9: a call with room is a push and a jump, and one without takes the fault of its check. -/
theorem callPushesOrOverflows : Obligations.CallPushesOrOverflows := by
  intro s nnn
  refine ⟨wordDecodesTo_of_encode_wordNnn rfl rfl, fun hlen => ⟨fun hroom => ?_, fun hfull => ?_⟩⟩
  · exact ⟨_, exec_callNnn_of_room hroom nnn, State.stackAt_push_self (hlen ▸ hroom) _,
      fun _ hk => State.stackAt_push_of_ne hk _, rfl, addrOf_toNat nnn, (onlyChanges_push s _).setPc _⟩
  · exact ⟨_, exec_callNnn_of_full hfull nnn, recordsFault_takeFault s .stackOverflow _⟩
end

section
/-! The display (spec/42_display.md). A drawing toggles a set of pixels and reports whether one of them was set. Two drawings
with disjoint sets are one drawing of both, so a sprite draws the union of its set bits, row by row and column by column. -/

namespace Sys2Proof.Machine

/-! ### Frames of the display instructions and of SnapCapture -/

theorem onlyChanges_advance_setFb (s : State) (f : Frame) : onlyChanges [.fb, .pc] s (s.advance.setFb f) := by
  intro p hp
  cases p with
  | fb | pc => exact absurd hp (by decide)
  | mem | v => exact fun _ => rfl
  | stack | snap | sched | entropy => exact ⟨rfl, rfl⟩
  | _ => rfl

/-- A write of a register stays inside every frame that lists the registers. -/
theorem onlyChanges.setV {ps qs : List Part} {s t : State} (h : onlyChanges ps s t) (hsub : ps ⊆ qs) (hv : Part.v ∈ qs)
    (r : Reg) (b : Byte) : onlyChanges qs s (t.setV r b) := by
  intro p hp
  have hps : p ∉ ps := mt (fun hmem => hsub hmem) hp
  cases p with
  | v => exact absurd hv hp
  | _ => exact h _ hps

/-- What a request or a capture can change (R211). -/
theorem onlyChanges_snapshot (s : State) (f : Frame) (pending : Bool) :
    onlyChanges [.snap, .agenda] s { s.dropMove with snap := f, snapReq := pending } := by
  intro p hp
  cases p with
  | snap | agenda => exact absurd hp (by decide)
  | mem | v => exact fun _ => rfl
  | stack | sched | entropy => exact ⟨rfl, rfl⟩
  | _ => rfl

/-! ### Pixels -/

/-- A frame is the pixels of its grid. -/
theorem Frame.ext_pixel {f g : Frame} (h : ∀ px py, Frame.pixel f px py = Frame.pixel g px py) : f = g := by
  refine Vector.ext fun y hy => BitVec.eq_of_getLsbD_eq fun x _ => ?_
  simpa only [Frame.pixel, dif_pos hy] using h x y

/-! ### Drawings (R202, R205) -/

/-- From the frame `f`, `out` is the frame with exactly the pixels of `P` toggled, and whether one of them was set. -/
structure DrawEffect (P : Nat → Nat → Prop) (f : Frame) (out : Frame × Bool) : Prop where
  toggled   : ∀ px py, P px py → Frame.pixel out.1 px py = !Frame.pixel f px py
  kept      : ∀ px py, ¬ P px py → Frame.pixel out.1 px py = Frame.pixel f px py
  collision : out.2 = true ↔ ∃ px py, P px py ∧ Frame.pixel f px py = true

namespace DrawEffect

theorem congr {P Q : Nat → Nat → Prop} {f : Frame} {out : Frame × Bool} (h : DrawEffect P f out)
    (hPQ : ∀ px py, Q px py ↔ P px py) : DrawEffect Q f out := by
  obtain rfl : Q = P := funext₂ fun px py => propext (hPQ px py)
  exact h

theorem nothing (f : Frame) : DrawEffect (fun _ _ => False) f (f, false) where
  toggled _ _ h := h.elim
  kept _ _ _ := rfl
  collision := by simp

/-- Toggling one pixel (R206). -/
theorem onePixel (f : Frame) {x y : Nat} (hx : x < 64) (hy : y < 32) :
    DrawEffect (fun px py => px = x ∧ py = y) f (Frame.toggle f x y, Frame.pixel f x y) where
  toggled px py h := by simp [pixel_toggle f hx hy, h.1, h.2]
  kept px py h := by rw [pixel_toggle f hx hy, ← Bool.decide_and, decide_eq_false h, Bool.xor_false]
  collision := by simp

/-- One drawing after another that touches none of its pixels is the drawing of both. -/
theorem andThen {P Q : Nat → Nat → Prop} {f : Frame} {a b : Frame × Bool} (ha : DrawEffect P f a)
    (hb : DrawEffect Q a.1 b) (hdisj : ∀ px py, P px py → ¬ Q px py) :
    DrawEffect (fun px py => P px py ∨ Q px py) f (b.1, a.2 || b.2) where
  toggled px py h := by
    obtain hP | hQ := h
    · rw [hb.kept px py (hdisj px py hP), ha.toggled px py hP]
    · rw [hb.toggled px py hQ, ha.kept px py fun hP => hdisj px py hP hQ]
  kept px py h := by
    obtain ⟨hP, hQ⟩ := not_or.1 h
    rw [hb.kept px py hQ, ha.kept px py hP]
  collision := by
    have hafter (px py : Nat) (hQ : Q px py) : Frame.pixel a.1 px py = Frame.pixel f px py :=
      ha.kept px py fun hP => hdisj px py hP hQ
    have hsecond : b.2 = true ↔ ∃ px py, Q px py ∧ Frame.pixel f px py = true := by
      rw [hb.collision]
      exact exists₂_congr fun px py => and_congr_right fun hQ => by rw [hafter px py hQ]
    simp only [Bool.or_eq_true, ha.collision, hsecond, or_and_right, exists_or]

/-- The same drawing made twice restores the frame. -/
theorem twice {P : Nat → Nat → Prop} {f : Frame} {a b : Frame × Bool} (ha : DrawEffect P f a)
    (hb : DrawEffect P a.1 b) : b.1 = f := by
  refine Frame.ext_pixel fun px py => ?_
  by_cases hP : P px py
  · rw [hb.toggled px py hP, ha.toggled px py hP, Bool.not_not]
  · rw [hb.kept px py hP, ha.kept px py hP]

/-- The second of two equal drawings collides where the first one set a pixel. -/
theorem twice_collision {P : Nat → Nat → Prop} {f : Frame} {a b : Frame × Bool} (ha : DrawEffect P f a)
    (hb : DrawEffect P a.1 b) : b.2 = true ↔ ∃ px py, P px py ∧ Frame.pixel f px py = false := by
  rw [hb.collision]
  exact exists₂_congr fun px py => and_congr_right fun hP => by rw [ha.toggled px py hP, Bool.not_eq_true']

end DrawEffect

/-! ### The sprite (R203, R204, R206) -/

/-- Pixel (px, py) is one of the first `n` columns of a sprite row whose bit is 1. -/
def rowToggles (b : Byte) (x0 yr n px py : Nat) : Prop :=
  ∃ k, k < n ∧ px = (x0 + k) % 64 ∧ py = yr ∧ b.getLsbD (7 - k) = true

/-- Pixel (px, py) is one of the first `n` rows of a sprite. -/
def rowsToggle (m : Memory) (base x0 y0 n px py : Nat) : Prop :=
  ∃ r, r < n ∧ rowToggles (Memory.get m (base + r)) x0 ((y0 + r) % 32) 8 px py

theorem rowToggles_succ (b : Byte) (x0 yr n px py : Nat) :
    rowToggles b x0 yr (n + 1) px py ↔
      rowToggles b x0 yr n px py ∨ (px = (x0 + n) % 64 ∧ py = yr ∧ b.getLsbD (7 - n) = true) :=
  Nat.exists_lt_succ_right

theorem rowsToggle_succ (m : Memory) (base x0 y0 n px py : Nat) :
    rowsToggle m base x0 y0 (n + 1) px py ↔
      rowsToggle m base x0 y0 n px py ∨ rowToggles (Memory.get m (base + n)) x0 ((y0 + n) % 32) 8 px py :=
  Nat.exists_lt_succ_right

/-- The pixels of a sprite row are drawn one after another; up to 64 columns are distinct. -/
theorem blitPixels_drawEffect (b : Byte) (x0 : Nat) {yr : Nat} (hy : yr < 32) (f : Frame) {n : Nat} (hn : n ≤ 64) :
    DrawEffect (rowToggles b x0 yr n) f (blitPixels b x0 yr f n) := by
  induction n with
  | zero => exact (DrawEffect.nothing f).congr fun px py => by simp [rowToggles]
  | succ n ih =>
    have hbefore := ih (by omega)
    cases hbit : b.getLsbD (7 - n) with
    | false =>
      rw [blitPixels, if_neg (by simp [hbit])]
      exact hbefore.congr fun px py => by simp [rowToggles_succ, hbit]
    | true =>
      rw [blitPixels, if_pos hbit]
      refine (hbefore.andThen (.onePixel _ (Nat.mod_lt _ (by decide)) hy) ?_).congr fun px py => by
        simp [rowToggles_succ, hbit]
      rintro px py ⟨k, hk, hcol, -⟩ ⟨hcol', -⟩
      omega

/-- The rows of a sprite are drawn one after another; up to 32 rows are distinct. -/
theorem drawRows_drawEffect (m : Memory) (base x0 y0 : Nat) (f : Frame) {n : Nat} (hn : n ≤ 32) :
    DrawEffect (rowsToggle m base x0 y0 n) f (drawRows m base x0 y0 f n) := by
  induction n with
  | zero => exact (DrawEffect.nothing f).congr fun px py => by simp [rowsToggle]
  | succ n ih =>
    have hrow := blitPixels_drawEffect (Memory.get m (base + n)) x0 (Nat.mod_lt (y0 + n) (by decide : 0 < 32))
      (drawRows m base x0 y0 f n).1 (by decide : 8 ≤ 64)
    refine ((ih (by omega)).andThen hrow ?_).congr fun px py => rowsToggle_succ m base x0 y0 n px py
    rintro px py ⟨r, hr, k, -, -, hline, -⟩ ⟨k', -, -, hline', -⟩
    omega

/-- `DXYN` draws its sprite. -/
theorem State.drawn_drawEffect (s : State) (x y : Reg) (n : BitVec 4) :
    DrawEffect (s.spriteToggles x y n) s.fb (s.drawn x y n) :=
  drawRows_drawEffect s.mem s.i.toNat (s.startColumn x) (s.startRow y) s.fb (by have := n.isLt; omega)

/-- A sprite lies on the grid. -/
theorem State.spriteToggles_bounds {s : State} {x y : Reg} {n : BitVec 4} {px py : Nat}
    (h : s.spriteToggles x y n px py) : px < 64 ∧ py < 32 := by
  obtain ⟨r, -, k, -, hcol, hrow, -⟩ := h
  omega

/-- The pixels of a sprite that satisfy `C`, looked for on the grid or anywhere. -/
theorem State.exists_spriteToggles_iff (s : State) (x y : Reg) (n : BitVec 4) (C : Nat → Nat → Prop) :
    (∃ px py, px < 64 ∧ py < 32 ∧ s.spriteToggles x y n px py ∧ C px py) ↔
      ∃ px py, s.spriteToggles x y n px py ∧ C px py := by
  refine exists₂_congr fun px py => ⟨fun ⟨_, _, h⟩ => h, fun h => ?_⟩
  obtain ⟨hx, hy⟩ := State.spriteToggles_bounds h.1
  exact ⟨hx, hy, h⟩

/-- A sprite is fixed by memory, `I` and its start. -/
theorem State.spriteToggles_congr {s t : State} {x y : Reg} (hmem : t.mem = s.mem) (hi : t.i = s.i)
    (hx : (t.getV x).toNat % 64 = (s.getV x).toNat % 64) (hy : (t.getV y).toNat % 32 = (s.getV y).toNat % 32)
    (n : BitVec 4) : t.spriteToggles x y n = s.spriteToggles x y n := by
  funext px py
  simp only [State.spriteToggles, State.readByte, hmem, hi, hx, hy]

/-! ### `DXYN` (R202) -/

theorem wordDecodesTo_drwVxVyN (x y : Reg) (n : BitVec 4) :
    wordDecodesTo (0xD000 + 0x100 * x.toNat + 0x10 * y.toNat + n.toNat) (.drwVxVyN x y n) := by
  have hw : 0xD000 + 0x100 * x.toNat + 0x10 * y.toNat + n.toNat =
      0xD000 + n.toNat + 0x100 * x.toNat + 0x10 * y.toNat := by omega
  rw [hw]
  exact wordDecodesTo_of_encode_wordXYN rfl rfl

/-- The state after a `DXYN` that does not fault. -/
def State.afterDrw (s : State) (x y : Reg) (n : BitVec 4) : State :=
  (s.advance.setFb (s.drawn x y n).1).setV Reg.vf (flagByte (s.drawn x y n).2)

@[simp] theorem State.afterDrw_fb (s : State) (x y : Reg) (n : BitVec 4) :
    (s.afterDrw x y n).fb = (s.drawn x y n).1 := rfl

@[simp] theorem State.afterDrw_mem (s : State) (x y : Reg) (n : BitVec 4) : (s.afterDrw x y n).mem = s.mem := rfl

@[simp] theorem State.afterDrw_i (s : State) (x y : Reg) (n : BitVec 4) : (s.afterDrw x y n).i = s.i := rfl

theorem exec_drwVxVyN_of_inside {s : State} {n : BitVec 4} (h : n.toNat = 0 ∨ s.i.toNat + n.toNat ≤ 0x1000)
    (x y : Reg) : exec (.drwVxVyN x y n) s = .next (s.afterDrw x y n) := by
  obtain ⟨hr, -⟩ | ⟨-, hpos, hout⟩ := rangeFault_cases s.i.toNat n.toNat
  · rw [exec, execDrwVxVyN, hr, orRaise_none, State.afterDrw]
  · omega

theorem exec_drwVxVyN_of_outside {s : State} {n : BitVec 4} (hpos : 0 < n.toNat)
    (hout : 0x1000 < s.i.toNat + n.toNat) (x y : Reg) : exec (.drwVxVyN x y n) s =
      .next (s.takeFault (.memoryOutOfBounds (BitVec.ofNat 17 (max s.i.toNat 0x1000))) s.fetchedWord) := by
  rw [exec, execDrwVxVyN, rangeFault_some hpos hout, orRaise_some]

theorem State.getV_afterDrw (s : State) (x y r : Reg) (n : BitVec 4) :
    (s.afterDrw x y n).getV r = if r = Reg.vf then flagByte (s.drawn x y n).2 else s.getV r :=
  State.getV_setV _ _ _ _

theorem State.getV_afterDrw_vf (s : State) (x y : Reg) (n : BitVec 4) :
    (s.afterDrw x y n).getV Reg.vf = flagByte (s.drawn x y n).2 := by rw [State.getV_afterDrw, if_pos rfl]

theorem onlyRegisters_afterDrw (s : State) (x y : Reg) (n : BitVec 4) :
    onlyRegisters [Reg.vf] s (s.afterDrw x y n) := by
  intro r hr
  rw [State.getV_afterDrw, if_neg (List.ne_of_not_mem_cons hr)]

theorem onlyChanges_afterDrw (s : State) (x y : Reg) (n : BitVec 4) :
    onlyChanges [.fb, .v, .pc] s (s.afterDrw x y n) :=
  (onlyChanges_advance_setFb s _).setV (by decide) (by decide) _ _

theorem flagByte_eq_one {c : Bool} (h : c = true) : flagByte c = 1#8 := by rw [h]; rfl

theorem flagByte_eq_zero {c : Bool} (h : ¬ c = true) : flagByte c = 0#8 := by rw [Bool.eq_false_iff.2 h]; rfl

/-! ### The snapshot format (R213) -/

/-- The first `n` bits of `g` shifted into a byte, the first one highest. -/
def packBits (g : Nat → Bool) (n : Nat) : Byte :=
  (List.range n).foldl (fun acc j => acc <<< 1 ||| flagByte (g j)) 0#8

theorem packBits_succ (g : Nat → Bool) (n : Nat) : packBits g (n + 1) = packBits g n <<< 1 ||| flagByte (g n) := by
  simp only [packBits, List.range_succ, List.foldl_append, List.foldl_cons, List.foldl_nil]

theorem getLsbD_flagByte (c : Bool) (i : Nat) : (flagByte c).getLsbD i = (c && decide (i = 0)) := by
  cases c <;> simp [flagByte, BitVec.getLsbD_one]

/-- Bit `j` of the input is bit `n - 1 - j` of the byte. -/
theorem getLsbD_packBits (g : Nat → Bool) {n j : Nat} (hn : n ≤ 8) (hj : j < n) :
    (packBits g n).getLsbD (n - 1 - j) = g j := by
  induction n with
  | zero => omega
  | succ n ih =>
    rw [packBits_succ, BitVec.getLsbD_or, BitVec.getLsbD_shiftLeft, getLsbD_flagByte, Nat.add_sub_cancel]
    obtain rfl | hlt := Nat.eq_or_lt_of_le (Nat.le_of_lt_succ hj)
    · simp
    · have hprev : n - j - 1 = n - 1 - j := by omega
      have hlow : ¬ n - j < 1 := by omega
      have hhigh : n - j < 8 := by omega
      rw [hprev, ih (by omega) hlt]
      simp [hlow, hhigh, Nat.sub_ne_zero_of_lt hlt]

theorem Frame.getLsbD_snapshotByte (f : Frame) (k : Nat) {j : Nat} (hj : j < 8) :
    (Frame.snapshotByte f k).getLsbD (7 - j) = Frame.pixel f (8 * (k % 8) + j) (k / 8) :=
  getLsbD_packBits (fun j => Frame.pixel f (8 * (k % 8) + j) (k / 8)) le_rfl hj

theorem Frame.snapshotBytes_getD (f : Frame) {k : Nat} (hk : k < 256) :
    (Frame.snapshotBytes f).getD k 0#8 = Frame.snapshotByte f k := by
  simp [Frame.snapshotBytes, hk]

end Sys2Proof.Machine

open Sys2Proof Sys2Proof.Machine

/-- Settles O12: the draw toggles the union of the sprite's set bits, or the range check faults before it. -/
theorem drawTogglesTheSprite : Obligations.DrawTogglesTheSprite := by
  intro s x y n
  have hdraw := s.drawn_drawEffect x y n
  refine ⟨wordDecodesTo_drwVxVyN x y n, fun hin => ?_, fun ⟨hpos, hout⟩ => ?_⟩
  · refine ⟨_, exec_drwVxVyN_of_inside hin x y, fun px py _ _ => hdraw.toggled px py, fun px py _ _ => hdraw.kept px py,
      fun h => ?_, fun h => ?_, onlyRegisters_afterDrw s x y n, rfl, onlyChanges_afterDrw s x y n⟩
    all_goals rw [State.exists_spriteToggles_iff, ← hdraw.collision] at h
    · rw [State.getV_afterDrw_vf, flagByte_eq_one h]
    · rw [State.getV_afterDrw_vf, flagByte_eq_zero h]
  · exact ⟨_, exec_drwVxVyN_of_outside hpos hout x y, recordsFault_takeFault s (.memoryOutOfBounds _) _⟩

/-- Settles O13: both draws toggle the same pixels, so the second undoes the first and collides where it set a pixel. -/
theorem drawTwiceRestoresTheFrame : Obligations.DrawTwiceRestoresTheFrame := by
  intro s t x y n hin hdrw hx hy
  obtain rfl := Host.Outcome.next.inj ((exec_drwVxVyN_of_inside hin x y).symm.trans hdrw)
  have hfirst := s.drawn_drawEffect x y n
  have hsecond := (s.afterDrw x y n).drawn_drawEffect x y n
  rw [State.afterDrw_fb, State.spriteToggles_congr (s.afterDrw_mem x y n) (s.afterDrw_i x y n) hx hy] at hsecond
  refine ⟨_, exec_drwVxVyN_of_inside (s := s.afterDrw x y n) hin x y, hfirst.twice hsecond, fun h => ?_, fun h => ?_⟩
  all_goals rw [State.exists_spriteToggles_iff, ← hfirst.twice_collision hsecond] at h
  · rw [State.getV_afterDrw_vf, flagByte_eq_one h]
  · rw [State.getV_afterDrw_vf, flagByte_eq_zero h]

/-- Settles O45: a request and a capture each write the snapshot alone, and every other move keeps the crossings or writes
the key registers. -/
theorem snapshotIsOneWholeFrame : Obligations.SnapshotIsOneWholeFrame := by
  refine ⟨fun s hm => ?_, fun s hm hreq => ?_, fun s hm hreq => ?_, fun s t ht hrequest hcapture hreset => ?_⟩
  · exact ⟨_, step_of_nextMove hm, rfl, rfl, rfl, onlyChanges_snapshot s s.snap true⟩
  · exact ⟨_, (step_of_nextMove hm).trans (congrArg Host.Outcome.next (snapCaptureMove_of_pending hreq)),
      rfl, rfl, rfl, onlyChanges_snapshot s s.fb false⟩
  · exact ⟨_, (step_of_nextMove hm).trans (congrArg Host.Outcome.next (snapCaptureMove_of_none hreq)),
      onlyChanges_dropMove s⟩
  · obtain hk | ⟨hm, -⟩ | ⟨hm, -⟩ | ⟨_, _, -, rfl⟩ | ⟨_, -, rfl⟩ := agentMove_crossing_cases ht hreset
    · exact ⟨hk.snap, hk.snapReq⟩
    · exact absurd hm hcapture
    · exact absurd hm hrequest
    · exact ⟨rfl, rfl⟩
    · exact ⟨rfl, rfl⟩

/-- Settles O46: byte 8y + x / 8 packs the eight pixels of row y that hold pixel x. -/
theorem snapshotFormatIsRowMajor : Obligations.SnapshotFormatIsRowMajor := by
  intro f
  refine ⟨by simp [Frame.snapshotBytes], fun x y hx hy => ⟨?_, ?_⟩⟩
  · have hcol : (64 * y + x) % 64 = x := by omega
    have hrow : (64 * y + x) / 64 = y := by omega
    rw [Frame.snapshotBit, hcol, hrow]
  · have hcol : 8 * ((8 * y + x / 8) % 8) + x % 8 = x := by omega
    have hrow : (8 * y + x / 8) / 8 = y := by omega
    have hbit : x % 8 < 8 := Nat.mod_lt x (by decide)
    rw [Frame.snapshotBytes_getD f (by omega), Frame.getLsbD_snapshotByte f _ hbit, hcol, hrow]

/-- Settles O11: `00E0` writes the blank frame and advances. -/
theorem clearScreenBlanksEveryPixel : Obligations.ClearScreenBlanksEveryPixel := fun s =>
  ⟨decodeWord_encode .cls, _, rfl, Frame.pixel_blank, rfl, onlyChanges_advance_setFb s _⟩
end

section
/-! Keys and timers (spec/43_keys_timers.md): each operation writes one part of the state, beside `PC` or a register. The
key-wait poll finds the lowest key that can complete the wait. A key bit crosses by a `Set` and then a copy. -/

namespace Sys2Proof.Machine

/-! ### Words and frames (R113, R114) -/

/-- A pattern `C X NN` of R114, with `C` and `NN` given, is its instruction's word. -/
theorem wordDecodesTo_of_encode_wordXNn_fixed {c x : BitVec 4} {nn : Byte} {base : Nat} {i : Instr}
    (h : encode i = wordXNn c x nn) (hbase : base = 0x1000 * c.toNat + nn.toNat) :
    wordDecodesTo (base + 0x100 * x.toNat) i := by
  rw [hbase, Nat.add_right_comm]
  exact wordDecodesTo_of_encode_wordXNn h rfl

/-- A write that leaves alone every part but `p` adds `p` to what changes. -/
theorem onlyChanges.cons {ps : List Part} {p : Part} {s t u : State} (h : onlyChanges ps s t)
    (hkeep : ∀ q, q ≠ p → State.agreesOn q s t → State.agreesOn q s u) : onlyChanges (p :: ps) s u := fun q hq =>
  hkeep q (List.ne_of_not_mem_cons hq) (h q (List.not_mem_of_not_mem_cons hq))

theorem onlyChanges_wait (s : State) (w : KeyWait) : onlyChanges [.wait] s { s with wait := w } :=
  (onlyChanges_refl s).cons fun q hq h => by
    cases q with
    | wait => exact absurd rfl hq
    | _ => exact h

theorem onlyChanges_setDt (s : State) (b : Byte) : onlyChanges [.dt] s (s.setDt b) :=
  (onlyChanges_refl s).cons fun q hq h => by
    cases q with
    | dt => exact absurd rfl hq
    | _ => exact h

theorem onlyChanges_setSt (s : State) (b : Byte) : onlyChanges [.st] s (s.setSt b) :=
  (onlyChanges_refl s).cons fun q hq h => by
    cases q with
    | st => exact absurd rfl hq
    | _ => exact h

theorem onlyChanges_dropMove_setKey (s : State) (k : BitVec 4) (pressed : Bool) :
    onlyChanges [.ku, .agenda] s (setKeyMove k pressed s.dropMove) :=
  (onlyChanges_dropMove s).cons fun q hq h => by
    cases q with
    | ku => exact absurd rfl hq
    | _ => exact h

theorem onlyChanges_dropMove_inputSync (s : State) (k : BitVec 4) :
    onlyChanges [.kp, .agenda] s (inputSyncMove k s.dropMove) :=
  (onlyChanges_dropMove s).cons fun q hq h => by
    cases q with
    | kp => exact absurd rfl hq
    | _ => exact h

/-! ### Key-tests (R221 to R223) -/

theorem State.keyPressed_eq (s : State) (x : Reg) : s.keyPressed x = s.kp.getLsbD ((s.getV x).toNat % 16) := by
  rw [State.keyPressed, keyBit, State.lowNibble, BitVec.extractLsb'_toNat, Nat.shiftRight_zero]

/-! ### The key-wait (R225, R226) -/

/-- The report of an Interpreter step that was RUNNING and takes no fault (R13). -/
theorem stepReport_of_running {s t : State} (hs : s.run = .running) (ht : t.run = .running) :
    stepReport s t = if t.wait.active then .waiting else .ok := by
  rw [stepReport, if_neg (not_not_intro hs), if_neg (not_not_intro ht)]

theorem interpStep_of_waiting {s : State} (hr : s.run = .running) (hw : s.wait.active = true) :
    interpStep s = .next s.keyWaitPoll := by
  simp [interpStep, hr, hw]

theorem State.getLsbD_candidateKeys_iff (s : State) {k : Nat} (hk : k < 16) :
    s.candidateKeys.getLsbD k = true ↔ s.canComplete k := by
  cases hmode : s.cfg.keywaitMode with
  | level => simp [State.candidateKeys, State.canComplete, hmode]
  | pressEdge => simp [State.candidateKeys, State.canComplete, hmode, hk]

/-- The lowest candidate can complete the wait, and no key below it can (R226, R227 d). -/
theorem State.lowestKey_candidateKeys_some {s : State} {k : Nat} (h : lowestKey s.candidateKeys = some k) :
    k < 16 ∧ s.canComplete k ∧ ∀ j, j < k → ¬ s.canComplete j := by
  obtain ⟨-, hk, hbit, hbelow⟩ := lowestKeyFrom_some h
  have hk : k < 16 := by omega
  refine ⟨hk, (s.getLsbD_candidateKeys_iff hk).1 hbit, fun j hj hcan => ?_⟩
  have hset := (s.getLsbD_candidateKeys_iff (hj.trans hk)).2 hcan
  rw [hbelow j (Nat.zero_le j) hj] at hset
  cases hset

theorem State.lowestKey_candidateKeys_none {s : State} (h : lowestKey s.candidateKeys = none) {k : Nat} (hk : k < 16) :
    ¬ s.canComplete k := by
  rw [← s.getLsbD_candidateKeys_iff hk, lowestKeyFrom_none h k (Nat.zero_le k) (by omega)]
  exact Bool.false_ne_true

theorem State.keyWaitPoll_of_no_candidate {s : State} (h : ∀ k, k < 16 → ¬ s.canComplete k) :
    s.keyWaitPoll = s.keepWaiting := by
  obtain ⟨-, hpoll⟩ | ⟨k, hk, -⟩ := keyWaitPoll_cases s
  · exact hpoll
  · obtain ⟨hlt, hcan, -⟩ := State.lowestKey_candidateKeys_some hk
    exact absurd hcan (h k hlt)

theorem State.keyWaitPoll_of_lowest {s : State} {k : Nat} (hk : k < 16) (hcan : s.canComplete k)
    (hlow : ∀ j, j < k → ¬ s.canComplete j) : s.keyWaitPoll = s.completeWait k := by
  obtain ⟨hnone, -⟩ | ⟨j, hj, hpoll⟩ := keyWaitPoll_cases s
  · exact absurd hcan (State.lowestKey_candidateKeys_none hnone hk)
  · obtain ⟨-, hcan', hlow'⟩ := State.lowestKey_candidateKeys_some hj
    have hjk : j = k := le_antisymm (Nat.not_lt.1 fun h => hlow' k h hcan) (Nat.not_lt.1 fun h => hlow j h hcan')
    rw [hpoll, hjk]

theorem State.keepWaiting_wait (s : State) : s.keepWaiting.wait =
    ⟨s.wait.active, s.wait.x, if s.cfg.keywaitMode = .pressEdge then s.kp else s.wait.prev⟩ := by
  cases hmode : s.cfg.keywaitMode <;> simp [State.keepWaiting, hmode]

theorem onlyChanges_keepWaiting (s : State) : onlyChanges [.wait] s s.keepWaiting := by
  unfold State.keepWaiting
  split
  · exact onlyChanges_wait s s.wait
  · exact onlyChanges_wait s _

theorem onlyRegisters_completeWait (s : State) (k : Nat) : onlyRegisters [s.wait.x] s (s.completeWait k) := by
  intro r hr
  rw [State.getV_completeWait, if_neg (List.ne_of_not_mem_cons hr)]

theorem onlyChanges_completeWait (s : State) (k : Nat) : onlyChanges [.v, .wait] s (s.completeWait k) :=
  (onlyChanges_wait s { s.wait with active := false }).setV (qs := [.v, .wait]) (by decide) (by decide) s.wait.x _

end Sys2Proof.Machine

open Sys2Proof Sys2Proof.Machine

/-- Settles O16: the search for the lowest candidate decides between the two ways the poll can go. -/
theorem keyWaitPollTakesTheLowestCandidate : Obligations.KeyWaitPollTakesTheLowestCandidate := by
  intro s hrun hwait
  refine ⟨fun hnone => ⟨s.keepWaiting, ?_, ?_, ?_, fun hmode => ?_, fun hmode => ?_, onlyChanges_keepWaiting s, ?_⟩,
    fun k hk hcan hlow => ⟨s.completeWait k, ?_, ?_, onlyRegisters_completeWait s k, rfl, rfl, rfl,
      onlyChanges_completeWait s k, ?_⟩⟩
  · rw [interpStep_of_waiting hrun hwait, State.keyWaitPoll_of_no_candidate hnone]
  · rw [State.keepWaiting_wait, hwait]
  · rw [State.keepWaiting_wait]
  · rw [State.keepWaiting_wait, if_pos hmode]
  · simp [State.keepWaiting_wait, hmode]
  · simp [stepReport_of_running hrun, State.keepWaiting_wait, hrun, hwait]
  · rw [interpStep_of_waiting hrun hwait, State.keyWaitPoll_of_lowest hk hcan hlow]
  · rw [State.getV_completeWait, if_pos rfl, BitVec.toNat_ofNat, Nat.mod_eq_of_lt (by omega)]
  · exact stepReport_of_running hrun hrun

/-- Settles O44: a `Set` and a key copy each write one bit, and every other move keeps the crossings or writes the
snapshot. -/
theorem keysCrossOneBitAtATime : Obligations.KeysCrossOneBitAtATime := by
  refine ⟨fun s k p hm => ?_, fun s k hm => ?_, fun s t ht hreset => ?_⟩
  · have hbit (j : Nat) (hj : j < 16) := getLsbD_withKeyBit s.ku k p hj
    exact ⟨_, step_of_nextMove hm, (hbit _ k.isLt).trans (if_pos rfl), fun j hj hne => (hbit j hj).trans (if_neg hne),
      rfl, onlyChanges_dropMove_setKey s k p⟩
  · have hbit (j : Nat) (hj : j < 16) := getLsbD_kp_inputSyncMove k s.dropMove hj
    exact ⟨_, step_of_nextMove hm, (hbit _ k.isLt).trans (if_pos rfl), fun j hj hne => (hbit j hj).trans (if_neg hne),
      onlyChanges_dropMove_inputSync s k⟩
  · obtain hk | ⟨-, -, rfl⟩ | ⟨-, rfl⟩ | ⟨k, p, hm, rfl⟩ | ⟨k, hm, rfl⟩ := agentMove_crossing_cases ht hreset
    · exact ⟨fun _ => hk.ku, fun _ => hk.kp⟩
    · exact ⟨fun _ => rfl, fun _ => rfl⟩
    · exact ⟨fun _ => rfl, fun _ => rfl⟩
    · exact ⟨fun hset => absurd hm (hset k p), fun _ => rfl⟩
    · exact ⟨fun _ => rfl, fun hcopy => absurd hm (hcopy k)⟩

/-- Settles O14: both key-tests are skips on the same bit of the sample, one on its negation. -/
theorem keyTestsSkipOnTheSample : Obligations.KeyTestsSkipOnTheSample := by
  intro s x
  refine ⟨wordDecodesTo_of_encode_wordXNn_fixed rfl rfl, ⟨_, rfl, ?_⟩,
    wordDecodesTo_of_encode_wordXNn_fixed rfl rfl, ⟨_, rfl, ?_⟩⟩
  all_goals
    rw [State.skipIf_eq_setPc, State.keyPressed_eq]
    refine ⟨onlyChanges_setPc s _, ?_⟩
  · rfl
  · simp only [State.setPc_pc, Bool.not_eq_true', ← Bool.not_eq_true, ite_not]

/-- Settles O15: the dispatch writes the key-wait registers and advances, and the report reads `WAIT`. -/
theorem keyWaitDispatchOnlyEntersTheWait : Obligations.KeyWaitDispatchOnlyEntersTheWait := fun s _ =>
  ⟨wordDecodesTo_of_encode_wordXNn_fixed rfl rfl, _, rfl, rfl, rfl, rfl, rfl,
    (onlyChanges_wait s _).setPc _, fun hrun => stepReport_of_running hrun hrun⟩

/-- Settles O17: one byte is written after the advance, and the sound level compares `ST` with 0. -/
theorem timerInstructionsMoveOneByte : Obligations.TimerInstructionsMoveOneByte := by
  intro s x
  refine ⟨wordDecodesTo_of_encode_wordXNn_fixed rfl rfl,
    ⟨_, rfl, ?_, onlyRegisters_advance_setV s x s.dt, (changesRegistersOnly_advance s).setV x s.dt⟩,
    wordDecodesTo_of_encode_wordXNn_fixed rfl rfl, ⟨_, rfl, rfl, rfl, (onlyChanges_setDt s _).setPc _⟩,
    wordDecodesTo_of_encode_wordXNn_fixed rfl rfl, ⟨_, rfl, rfl, bne_iff_ne, rfl, (onlyChanges_setSt s _).setPc _⟩⟩
  rw [State.getV_setV, if_pos rfl]
end

section
/-! BCD, random, index, font and block transfers (spec/44_index_memory.md). A checked access either takes the fault of its
range check or writes memory, registers and `I`; what it writes is read back byte by byte. -/

namespace Sys2Proof.Machine

/-! ### Frames of memory, `I` and the draws -/

/-- A write of `I` stays inside every frame that lists it. -/
theorem onlyChanges.setI {ps qs : List Part} {s t : State} (h : onlyChanges ps s t) (hsub : ps ⊆ qs) (hi : Part.i ∈ qs)
    (w : Word) : onlyChanges qs s (t.setI w) := by
  intro p hp
  have hps : p ∉ ps := mt (fun hmem => hsub hmem) hp
  cases p with
  | i => exact absurd hi hp
  | _ => exact h _ hps

/-- The flag of `FX1E` is a register write or none (R255). -/
theorem onlyChanges.setIndexFlag {ps : List Part} {s t : State} (h : onlyChanges ps s t) (hv : Part.v ∈ ps) (n : Nat) :
    onlyChanges ps s (t.setIndexFlag n) := by
  unfold State.setIndexFlag
  split
  · exact h
  · exact h.setV (List.Subset.refl ps) hv _ _

theorem onlyChanges_mem (s : State) (m : Memory) : onlyChanges [.mem] s { s with mem := m } :=
  (onlyChanges_refl s).cons fun q hq h => by
    cases q with
    | mem => exact absurd rfl hq
    | _ => exact h

/-- A block load is register writes (R261). -/
theorem changesRegistersOnly.loadedBlock {s t : State} (h : changesRegistersOnly s t) (base n : Nat) :
    changesRegistersOnly s (t.loadedBlock base n) := by
  induction n with
  | zero => exact h
  | succ n ih => exact ih.setV _ _

/-- A draw changes the Entropy agent's answers to come, and nothing else (R253). -/
theorem onlyChanges_afterDraw (s : State) : onlyChanges [.entropy] s s.afterDraw := by
  unfold State.afterDraw
  split
  all_goals
    refine (onlyChanges_refl s).cons fun q hq h => ?_
    cases q with
    | entropy => exact absurd rfl hq
    | _ => exact h

/-! ### Checked accesses (R81) -/

theorem orRaise_rangeFault_of_inside {base n : Nat} (h : base + n ≤ 0x1000) (s k : State) :
    orRaise (rangeFault base n) s k = .next k := by rw [rangeFault_none h, orRaise_none]

/-- An access that leaves memory takes the fault and nothing else happens (R306). -/
theorem orRaise_rangeFault_of_outside {base n : Nat} (hpos : 0 < n) (h : 0x1000 < base + n) (s k : State) :
    ∃ t, orRaise (rangeFault base n) s k = .next t ∧
      recordsFault .memoryOutOfBounds s.fetchedWord (BitVec.ofNat 17 (max base 0x1000)) s t :=
  ⟨_, congrArg (orRaise · s k) (rangeFault_some hpos h), recordsFault_takeFault s (.memoryOutOfBounds _) _⟩

/-! ### Bytes read back (R250, R260) -/

theorem Memory.get_writeBytes_inside {m : Memory} (hm : Memory.wf m = true) {a k : Nat} {xs : List Byte}
    (ha : a + xs.length ≤ 0x1000) (hk : k < xs.length) :
    Memory.get (Memory.writeBytes m a xs) (a + k) = xs.getD k 0#8 := by
  rw [Memory.get_writeBytes hm ha, if_pos ⟨Nat.le_add_right a k, Nat.add_lt_add_left hk a⟩, Nat.add_sub_cancel_left]

theorem Memory.get_storedBlock_register {s : State} (hm : Memory.wf s.mem = true) {base n : Nat}
    (hb : base + n ≤ 0x1000) {r : Reg} (hr : r.toNat < n) :
    Memory.get (s.storedBlock base n) (base + r.toNat) = s.getV r := by
  rw [Memory.get_storedBlock hm hb, if_pos ⟨Nat.le_add_right _ _, Nat.add_lt_add_left hr base⟩,
    Nat.add_sub_cancel_left, BitVec.ofNat_toNat, BitVec.setWidth_eq]

/-- Each digit fits a byte, so none is reduced. -/
theorem bcdDigits_toNat (b : Byte) : ((bcdDigits b).getD 0 0#8).toNat = b.toNat / 100 ∧
    ((bcdDigits b).getD 1 0#8).toNat = b.toNat / 10 % 10 ∧ ((bcdDigits b).getD 2 0#8).toNat = b.toNat % 10 := by
  have hb : b.toNat < 256 := b.isLt
  refine ⟨?_, ?_, ?_⟩
  all_goals exact Nat.mod_eq_of_lt (by omega)

/-! ### The values of `I` -/

theorem State.lowNibble_toNat (s : State) (x : Reg) : (s.lowNibble x).toNat = (s.getV x).toNat % 16 := by
  rw [State.lowNibble, BitVec.extractLsb'_toNat, Nat.shiftRight_zero]

theorem configValid_fontBase {c : Config} (h : configValid c = true) : c.fontBase + 79 ≤ 0x1FF := by
  simp only [configValid, Bool.and_eq_true, decide_eq_true_eq] at h
  omega

/-- Under a valid `FONT_BASE` the address of a digit's sprite does not wrap (R256, R258). -/
theorem State.fontAddress_toNat {s : State} (h : configValid s.cfg = true) (x : Reg) :
    (s.fontAddress x).toNat = s.cfg.fontBase + 5 * ((s.getV x).toNat % 16) := by
  have hbase := configValid_fontBase h
  rw [State.fontAddress, State.lowNibble_toNat, BitVec.toNat_ofNat]
  omega

section indexAfterBlock
variable {s : State} {x : Reg}

theorem State.indexAfterBlock_incXPlus1 (hin : s.i.toNat + x.toNat < 0x1000) (h : s.cfg.ldstIMode = .incXPlus1) :
    (s.indexAfterBlock x).toNat = s.i.toNat + x.toNat + 1 := by
  rw [State.indexAfterBlock, h, BitVec.toNat_ofNat, Nat.mod_eq_of_lt (by omega)]

theorem State.indexAfterBlock_incX (hin : s.i.toNat + x.toNat < 0x1000) (h : s.cfg.ldstIMode = .incX) :
    (s.indexAfterBlock x).toNat = s.i.toNat + x.toNat := by
  rw [State.indexAfterBlock, h, BitVec.toNat_ofNat, Nat.mod_eq_of_lt (by omega)]

theorem State.indexAfterBlock_unchanged (h : s.cfg.ldstIMode = .unchanged) : s.indexAfterBlock x = s.i := by
  rw [State.indexAfterBlock, h]

end indexAfterBlock

/-! ### The draw (R253) -/

section draw
variable {s : State} {b : Byte} {rest : List Byte}

theorem State.drawnByte_of_listed (h : s.env.answers = b :: rest) : s.drawnByte = b := by rw [State.drawnByte, h]

theorem State.drawnByte_of_none (h : s.env.answers = []) : s.drawnByte = Config.freeDraw s.env.draws := by
  rw [State.drawnByte, h]

theorem State.afterDraw_env_of_listed (h : s.env.answers = b :: rest) :
    s.afterDraw.env = { s.env with answers := rest } := by rw [State.afterDraw, h]

theorem State.afterDraw_env_of_none (h : s.env.answers = []) :
    s.afterDraw.env = { s.env with draws := s.env.draws + 1 } := by rw [State.afterDraw, h]

end draw

end Sys2Proof.Machine

open Sys2Proof Sys2Proof.Machine

/-- Settles O22: a byte of the block reads the register stored there, every other byte its old value. -/
theorem blockStoreWritesV0ToVX : Obligations.BlockStoreWritesV0ToVX := by
  intro s x
  refine ⟨wordDecodesTo_of_encode_wordXNn_fixed rfl rfl, fun hm => ⟨fun hin => ?_, fun hout => ?_⟩⟩
  · have hb : s.i.toNat + blockCount x ≤ 0x1000 := hin
    exact ⟨_, orRaise_rangeFault_of_inside hb s _,
      fun r hr => Memory.get_storedBlock_register hm hb (Nat.lt_succ_of_le hr),
      fun a ha => (Memory.get_storedBlock hm hb a).trans (if_neg ha),
      State.indexAfterBlock_incXPlus1 hin, State.indexAfterBlock_incX hin, State.indexAfterBlock_unchanged, rfl,
      ((onlyChanges_mem s _).setPc _).setI (by decide) (by decide) _⟩
  · exact orRaise_rangeFault_of_outside (Nat.succ_pos _) (Nat.lt_succ_of_le hout) s _

/-- Settles O23: a register up to VX holds the byte loaded, every other register its old value. -/
theorem blockLoadReadsV0ToVX : Obligations.BlockLoadReadsV0ToVX := by
  intro s x
  refine ⟨wordDecodesTo_of_encode_wordXNn_fixed rfl rfl, fun hin => ?_, fun hout => ?_⟩
  · have hload := (changesRegistersOnly_advance s).loadedBlock s.i.toNat (blockCount x)
    have hreg := s.advance.getV_loadedBlock s.i.toNat (n := blockCount x) x.isLt
    exact ⟨_, orRaise_rangeFault_of_inside (n := blockCount x) hin s _,
      fun r hr => (hreg r).trans (if_pos (Nat.lt_succ_of_le hr)),
      fun r hr => (hreg r).trans (if_neg (Nat.not_lt_of_le hr)),
      State.indexAfterBlock_incXPlus1 hin, State.indexAfterBlock_incX hin, State.indexAfterBlock_unchanged,
      hload.1, hload.2.setI (by decide) (by decide) _⟩
  · exact orRaise_rangeFault_of_outside (Nat.succ_pos _) (Nat.lt_succ_of_le hout) s _

/-- Settles O18: the three bytes read back are the digits. -/
theorem bcdStoresThreeDigits : Obligations.BcdStoresThreeDigits := by
  intro s x
  refine ⟨wordDecodesTo_of_encode_wordXNn_fixed rfl rfl, fun hm => ⟨fun hin => ?_, fun hout => ?_⟩⟩
  · have hread {k : Nat} (hk : k < 3) := Memory.get_writeBytes_inside (xs := bcdDigits (s.getV x)) hm hin hk
    obtain ⟨hhundreds, htens, hones⟩ := bcdDigits_toNat (s.getV x)
    exact ⟨_, orRaise_rangeFault_of_inside hin s _, (congrArg BitVec.toNat (hread (by decide))).trans hhundreds,
      (congrArg BitVec.toNat (hread (by decide))).trans htens, (congrArg BitVec.toNat (hread (by decide))).trans hones,
      fun a ha => (Memory.get_writeBytes hm hin a).trans (if_neg ha), rfl, (onlyChanges_mem s _).setPc _⟩
  · exact orRaise_rangeFault_of_outside (by decide) hout s _

/-- Settles O19: the draw touches the environment alone, and VX is the masked byte drawn. -/
theorem randomLoadsOneMaskedDraw : Obligations.RandomLoadsOneMaskedDraw := by
  intro s x nn
  have hx : (s.afterDraw.advance.setV x (s.drawnByte &&& nn)).getV x = s.drawnByte &&& nn := by
    rw [State.getV_setV, if_pos rfl]
  refine ⟨wordDecodesTo_of_encode_wordXNn rfl rfl, _, rfl, fun b rest h => ?_, fun h => ?_, fun r hr => ?_, ?_,
    ((onlyChanges_afterDraw s).setPc _).setV (by decide) (by decide) _ _⟩
  · rw [hx, State.drawnByte_of_listed h, State.setV_env, State.advance_env, State.afterDraw_env_of_listed h]
    exact ⟨rfl, rfl, rfl⟩
  · rw [hx, State.drawnByte_of_none h, State.setV_env, State.advance_env, State.afterDraw_env_of_none h]
    exact ⟨rfl, h, rfl⟩
  · rw [onlyRegisters_advance_setV s.afterDraw x _ r hr, State.getV_afterDraw]
  · rw [State.setV_pc, State.advance_pc, State.nextPc_afterDraw, State.nextPc]

/-- Settles O20: both instructions write `I` after the advance, and `FX1E` writes VF at most. -/
theorem indexLoadAndAdd : Obligations.IndexLoadAndAdd := by
  intro s x nnn
  have hi (w : Word) : onlyChanges [.i, .pc] s (s.advance.setI w) :=
    (onlyChanges_setPc s _).setI (by decide) (by decide) w
  refine ⟨wordDecodesTo_of_encode_wordNnn rfl rfl, ⟨_, rfl, addrOf_toNat nnn, rfl, hi _⟩,
    wordDecodesTo_of_encode_wordXNn_fixed rfl rfl, ⟨_, rfl, ?_, fun hmode r => ?_, fun hmode => ?_, fun r hr => ?_, ?_, ?_⟩⟩
  · rw [State.setIndexFlag_i, State.setI_i, BitVec.toNat_ofNat]
    rfl
  · simp [State.getV_setIndexFlag, hmode]
  · simp [State.getV_setIndexFlag, hmode, flagByte, indexOverflow, State.indexSum]
  · have hr : r ≠ Reg.vf := List.ne_of_not_mem_cons hr
    simp [State.getV_setIndexFlag, hr]
  · rw [State.setIndexFlag_pc]
    rfl
  · exact ((onlyChanges_setPc s _).setI (by decide) (by decide) _).setIndexFlag (by decide) _

/-- Settles O21: the digit is the low nibble, and a valid `FONT_BASE` leaves room for its sprite. -/
theorem fontLookupUsesTheLowNibble : Obligations.FontLookupUsesTheLowNibble := fun s x =>
  ⟨wordDecodesTo_of_encode_wordXNn_fixed rfl rfl, _, rfl, fun hvalid => State.fontAddress_toNat hvalid x, rfl,
    (onlyChanges_setPc s _).setI (by decide) (by decide) _⟩
end

section
/-! Faults (spec/60_exceptions.md R300 to R306). Every instruction is a check that may raise and then an effect that leaves
`RUNSTATE` alone, so a step that leaves RUNNING has taken a fault and done nothing else. -/

namespace Sys2Proof.Machine

/-- A frame is a frame of every longer list of parts. -/
theorem onlyChanges.mono {ps qs : List Part} {s t : State} (h : onlyChanges ps s t) (hsub : ps ⊆ qs) :
    onlyChanges qs s t := fun p hp => h p fun hmem => hp (hsub hmem)

/-! ### The check of each instruction (R300 to R303) -/

/-- What an instruction can raise before its first write: six instructions have a check, the others none. -/
def faultCheck (i : Instr) (s : State) : Option Fault :=
  match i with
  | .callNnn _ => s.overflowFault
  | .ret => s.underflowFault
  | .drwVxVyN _ _ n => rangeFault s.i.toNat n.toNat
  | .ldBVx _ => rangeFault s.i.toNat 3
  | .ldMemVx x | .ldVxMem x => rangeFault s.i.toNat (blockCount x)
  | _ => none

/-- An instruction is its check and then its effect, and no effect writes `RUNSTATE` (R38). -/
theorem exec_eq_orRaise (i : Instr) (s : State) :
    ∃ k, k.run = s.run ∧ exec i s = orRaise (faultCheck i s) s k := by
  cases i <;> exact ⟨_, by simp, rfl⟩

theorem exec_next (i : Instr) (s : State) : ∃ t, exec i s = .next t := by
  obtain ⟨k, -, he⟩ := exec_eq_orRaise i s
  rw [he]
  exact orRaise_next _ s k

/-- An instruction that changes `RUNSTATE` has taken the fault its check raises (R306). -/
theorem exec_takes_fault {i : Instr} {s t : State} (h : exec i s = .next t) (hr : t.run ≠ s.run) :
    ∃ f, faultCheck i s = some f ∧ t = s.takeFault f s.fetchedWord := by
  obtain ⟨k, hk, he⟩ := exec_eq_orRaise i s
  obtain hfault | ⟨-, rfl⟩ := orRaise_cases (he.symm.trans h)
  · exact hfault
  · exact absurd hk hr

theorem overflowFault_eq_some {s : State} {f : Fault} (h : s.overflowFault = some f) :
    s.sp = s.cfg.stackDepth ∧ f = .stackOverflow := by
  unfold State.overflowFault at h
  split at h
  · next hsp => exact ⟨hsp, (Option.some.inj h).symm⟩
  · cases h

theorem underflowFault_eq_some {s : State} {f : Fault} (h : s.underflowFault = some f) :
    s.sp = 0 ∧ f = .stackUnderflow := by
  unfold State.underflowFault at h
  split at h
  · next hsp => exact ⟨hsp, (Option.some.inj h).symm⟩
  · cases h

/-- A range check from a 16-bit address reports an address above 0xFFF, which the record holds unreduced (R301 c). -/
theorem rangeFault_eq_some {base : Word} {n : Nat} {f : Fault} (h : rangeFault base.toNat n = some f) :
    f.code = .memoryOutOfBounds ∧ 0xFFF < f.recordedAddr.toNat := by
  have hbase : base.toNat < 0x10000 := base.isLt
  obtain ⟨hnone, -⟩ | ⟨hsome, -, -⟩ := rangeFault_cases base.toNat n
  · cases hnone.symm.trans h
  · obtain rfl := Option.some.inj (hsome.symm.trans h)
    refine ⟨rfl, ?_⟩
    rw [Fault.recordedAddr, BitVec.toNat_ofNat, Nat.mod_eq_of_lt (by omega)]
    omega

/-! ### Invalid words (R304) -/

section fetched
variable {s : State} {r : DecodeReject}

theorem runFetched_of_reject (hd : decodeWord s.fetchedWord = .reject r) : runFetched s = invalidWord s := by
  simp only [runFetched_eq, hd]

theorem runFetched_of_ok {i : Instr} (hd : decodeWord s.fetchedWord = .ok i) : runFetched s = exec i s := by
  simp only [runFetched_eq, hd]

/-- A word that the decoder rejects, once the fetch checks have passed, is left to the policy (R113, R115). -/
theorem interpStep_of_reject (hr : s.run = .running) (hw : s.wait.active = false) (hf : s.fetchFault = none)
    (hd : decodeWord s.fetchedWord = .reject r) : interpStep s = invalidWord s := by
  rw [interpStep_of_running hr hw, fetchAndRun, hf]
  exact runFetched_of_reject hd

end fetched

theorem invalidWord_next (s : State) : ∃ t, invalidWord s = .next t := by
  cases hp : s.cfg.invalidOpcode with
  | fatal => exact ⟨_, invalidWord_fatal hp⟩
  | skip => exact ⟨_, invalidWord_skip hp⟩

theorem onlyChanges_skipInvalid (s : State) :
    onlyChanges [.invalidSeen, .pc] s { s.advance with invalidSeen := true } :=
  (onlyChanges_setPc s s.nextPc).cons fun q hq h => by
    cases q with
    | invalidSeen => exact absurd rfl hq
    | _ => exact h

/-! ### What an Interpreter step answers (R113, R305, R306) -/

theorem runFetched_next (s : State) : ∃ t, runFetched s = .next t := by
  cases hd : decodeWord s.fetchedWord with
  | ok i => rw [runFetched_of_ok hd]; exact exec_next i s
  | reject r => rw [runFetched_of_reject hd]; exact invalidWord_next s

theorem interpStep_next (s : State) : ∃ t, interpStep s = .next t := by
  obtain ⟨-, h⟩ | ⟨-, -, h⟩ | ⟨-, -, f, -, h⟩ | ⟨-, -, -, h⟩ := interpStep_cases s
  · exact ⟨_, h⟩
  · exact ⟨_, h⟩
  · exact ⟨_, h⟩
  · rw [h]; exact runFetched_next s

/-- What runs after a passed fetch changes `RUNSTATE` only by taking a fault with the fetched word (R305). -/
theorem runFetched_takes_fault {s t : State} (h : runFetched s = .next t) (hr : t.run ≠ s.run) :
    ∃ f, t = s.takeFault f s.fetchedWord := by
  cases hd : decodeWord s.fetchedWord with
  | ok i =>
    obtain ⟨f, -, ht⟩ := exec_takes_fault ((runFetched_of_ok hd).symm.trans h) hr
    exact ⟨f, ht⟩
  | reject r =>
    rw [runFetched_of_reject hd] at h
    cases hp : s.cfg.invalidOpcode with
    | fatal => exact ⟨_, (Host.Outcome.next.inj ((invalidWord_fatal hp).symm.trans h)).symm⟩
    | skip =>
      obtain rfl := Host.Outcome.next.inj ((invalidWord_skip hp).symm.trans h)
      exact absurd rfl hr

/-- A step that leaves RUNNING has taken a fault, with the fetched word or, where the fetch raised it, with 0 (R305). -/
theorem interpStep_takes_fault {s t : State} (hs : s.run = .running) (h : interpStep s = .next t)
    (ht : t.run ≠ .running) : ∃ f, t = s.takeFault f (if s.fetchFault = none then s.fetchedWord else 0#16) := by
  obtain ⟨hno, -⟩ | ⟨-, -, hn⟩ | ⟨-, -, f, hf, hn⟩ | ⟨-, -, hf, hn⟩ := interpStep_cases s
  · exact absurd hs hno
  · obtain rfl := Host.Outcome.next.inj (hn.symm.trans h)
    obtain ⟨-, hpoll⟩ | ⟨k, -, hpoll⟩ := keyWaitPoll_cases s <;> simp [hpoll, hs] at ht
  · rw [hf]
    exact ⟨f, (Host.Outcome.next.inj (hn.symm.trans h)).symm⟩
  · rw [if_pos hf]
    exact runFetched_takes_fault (hn.symm.trans h) (hs ▸ ht)

/-- A step that leaves RUNNING reports the fault it has recorded (R13). -/
theorem stepReport_of_halted {s t : State} (hs : s.run = .running) (ht : t.run ≠ .running) :
    stepReport s t = .faulted t.fault.code := by
  rw [stepReport, if_neg (not_not_intro hs), if_pos ht]

theorem interpStep_of_not_running {s : State} (h : s.run ≠ .running) : interpStep s = .next s := by
  obtain ⟨-, hn⟩ | ⟨hr, -⟩ | ⟨hr, -⟩ | ⟨hr, -⟩ := interpStep_cases s
  · exact hn
  all_goals exact absurd hr h

end Sys2Proof.Machine

open Sys2Proof Sys2Proof.Machine

/-- Settles O27: such a step is the taking of one fault, whatever raised it. -/
theorem faultsArePrecise : Obligations.FaultsArePrecise := by
  intro s t hs h ht
  have hreport := stepReport_of_halted hs ht
  have hagain := interpStep_of_not_running ht
  obtain ⟨f, rfl⟩ := interpStep_takes_fault hs h ht
  exact ⟨onlyChanges_takeFault s f _, rfl, rfl, rfl, f.code_ne_none, Fault.recordedAddr_eq_zero, hreport, hagain⟩

/-- Settles O28: an instruction faults as its check raises, and only six have one. -/
theorem onlyListedInstructionsFault : Obligations.OnlyListedInstructionsFault := by
  intro i s t hs h ht
  obtain ⟨f, hf, rfl⟩ := exec_takes_fault h (hs.symm ▸ ht)
  cases i with
  | callNnn nnn =>
    obtain ⟨hsp, rfl⟩ := overflowFault_eq_some hf
    exact .inl ⟨⟨nnn, rfl⟩, hsp, rfl⟩
  | ret =>
    obtain ⟨hsp, rfl⟩ := underflowFault_eq_some hf
    exact .inr (.inl ⟨rfl, hsp, rfl⟩)
  | drwVxVyN x y n => exact .inr (.inr ⟨.inl ⟨x, y, n, rfl⟩, rangeFault_eq_some hf⟩)
  | ldBVx x => exact .inr (.inr ⟨.inr (.inl ⟨x, rfl⟩), rangeFault_eq_some hf⟩)
  | ldMemVx x => exact .inr (.inr ⟨.inr (.inr (.inl ⟨x, rfl⟩)), rangeFault_eq_some hf⟩)
  | ldVxMem x => exact .inr (.inr ⟨.inr (.inr (.inr ⟨x, rfl⟩)), rangeFault_eq_some hf⟩)
  | _ => cases hf

/-- Settles O26: a rejected word that was fetched is left to the policy. -/
theorem invalidWordFollowsThePolicy : Obligations.InvalidWordFollowsThePolicy := by
  intro s r hr hw hf hd
  rw [interpStep_of_reject hr hw hf hd]
  exact ⟨fun hp => ⟨_, invalidWord_fatal hp, recordsFault_takeFault s .invalidOpcode _⟩,
    fun hp => ⟨_, invalidWord_skip hp, rfl, rfl, (onlyChanges_skipInvalid s).mono (by decide)⟩⟩
end

section
/-! The moves of the agents (spec/60_exceptions.md R320 to R343): a move that is not enabled does nothing, the moves from
outside write their own surfaces only, and the Scheduler goes by its table. -/

namespace Sys2Proof.Machine

/-! ### Frames of the Scheduler's parts -/

section frames
variable {ps : List Part} {s t : State}

theorem onlyChanges.setSched (h : onlyChanges ps s t) (c : Sched) (n : Nat) :
    onlyChanges (.sched :: ps) s { t with sched := c, batchLeft := n } :=
  h.cons fun q hq hk => by
    cases q with
    | sched => exact absurd rfl hq
    | _ => exact hk

theorem onlyChanges.setRun (h : onlyChanges ps s t) (r : RunState) : onlyChanges (.run :: ps) s { t with run := r } :=
  h.cons fun q hq hk => by
    cases q with
    | run => exact absurd rfl hq
    | _ => exact hk

theorem onlyChanges.trip (h : onlyChanges ps s t) : onlyChanges (.fuse :: ps) s t.trip :=
  h.cons fun q hq hk => by
    cases q with
    | fuse => exact absurd rfl hq
    | _ => exact hk

theorem onlyChanges.setTimerPending (h : onlyChanges ps s t) (b : Byte) :
    onlyChanges (.timerPending :: ps) s { t with timerPending := b } :=
  h.cons fun q hq hk => by
    cases q with
    | timerPending => exact absurd rfl hq
    | _ => exact hk

theorem onlyChanges.exitRun (h : onlyChanges ps s t) : onlyChanges (.run :: .sched :: ps) s t.exitRun :=
  (h.setSched .exit t.batchLeft).setRun .halted

theorem onlyChanges.timerPhase (h : onlyChanges ps s t) :
    onlyChanges (.dt :: .st :: .timerPending :: ps) s t.timerPhase := by
  intro q hq
  have hps : q ∉ ps := fun hmem => hq (by simp [hmem])
  cases q with
  | dt | st | timerPending => exact absurd hq (by simp)
  | _ => exact h _ hps

end frames

/-! ### Every move answers a next state (log 3, log 5) -/

theorem coreMove_next (s : State) : ∃ t, coreMove s = .next t := by
  cases hs : s.sched with
  | batch =>
    obtain ⟨u, hu⟩ := interpStep_next s
    exact ⟨_, by rw [coreMove_batch hs, hu, onNext_next]⟩
  | timer => exact ⟨_, coreMove_timer hs⟩
  | sleep => exact ⟨_, coreMove_sleep hs⟩
  | exit => exact ⟨_, coreMove_exit hs⟩

theorem agentMove_next (m : Move) (s : State) : ∃ t, agentMove m s = .next t := by
  cases m with
  | core => exact coreMove_next s
  | _ => exact ⟨_, rfl⟩

/-! ### Moves that are not enabled (log 3) -/

theorem withKeyBit_keyBit (w : Word) (k : BitVec 4) : withKeyBit w k (keyBit w k) = w := by
  refine BitVec.eq_of_getLsbD_eq fun j hj => ?_
  rw [getLsbD_withKeyBit w k _ hj]
  split
  · next h => rw [h]; rfl
  · rfl

theorem inputSyncMove_of_equal {k : BitVec 4} {s : State} (h : keyBit s.kp k = keyBit s.ku k) :
    inputSyncMove k s = s := by
  rw [inputSyncMove, ← h, withKeyBit_keyBit]

theorem coreMove_of_not_enabled {s : State} (h : Move.enabled .core s = false) : coreMove s = .next s := by
  cases hs : s.sched with
  | batch | timer => simp [Move.enabled, hs] at h
  | sleep => exact coreMove_sleep hs
  | exit => exact coreMove_exit hs

/-- A move that its rule does not enable changes nothing. -/
theorem agentMove_of_not_enabled {m : Move} {s : State} (h : m.enabled s = false) : agentMove m s = .next s := by
  cases m with
  | core => exact coreMove_of_not_enabled h
  | tick => exact congrArg Host.Outcome.next (if_neg (Bool.eq_false_iff.1 h))
  | timerTick => exact congrArg Host.Outcome.next (if_neg (Bool.eq_false_iff.1 h))
  | inputSync k =>
    have heq : keyBit s.kp k = keyBit s.ku k := by simpa [Move.enabled] using h
    exact congrArg Host.Outcome.next (inputSyncMove_of_equal heq)
  | snapCapture => exact congrArg Host.Outcome.next (snapCaptureMove_of_none h)
  | configure c =>
    have hr : s.run ≠ .unloaded := by simpa [Move.enabled] using h
    obtain ⟨hu, -⟩ | ⟨-, he⟩ := configureMove_cases c s
    · exact absurd hu hr
    · exact congrArg Host.Outcome.next he
  | load image =>
    have hr : s.run ≠ .unloaded := by simpa [Move.enabled] using h
    obtain ⟨hu, -⟩ | he := loadMove_cases image s
    · exact absurd hu hr
    · exact congrArg Host.Outcome.next he
  | reset =>
    have hr : ¬ (s.run = .unloaded ∨ s.sched = .exit) := by simpa [Move.enabled] using h
    exact congrArg Host.Outcome.next (if_neg hr)
  | setKey | snapshotRequest | trip => cases h

/-- Taking the move off the list neither enables nor disables it. -/
theorem Move.enabled_dropMove (m : Move) (s : State) : m.enabled s.dropMove = m.enabled s := by cases m <;> rfl

theorem step_of_not_enabled {s : State} (h : s.nextMove.enabled s = false) : step s = .next s.dropMove :=
  agentMove_of_not_enabled ((Move.enabled_dropMove _ s).trans h)

/-! ### The moves from outside (R350) -/

theorem onlyChanges_dropMove_strobe (s : State) : onlyChanges [.timerPending, .agenda] s (strobeMove s.dropMove) := by
  obtain ⟨b, he⟩ := strobeMove_eq s.dropMove
  rw [he]
  exact (onlyChanges_dropMove s).setTimerPending b

theorem onlyChanges_dropMove_snapCapture (s : State) : onlyChanges [.snap, .agenda] s (snapCaptureMove s.dropMove) := by
  unfold snapCaptureMove
  split
  · exact onlyChanges_snapshot s _ _
  · exact (onlyChanges_dropMove s).mono (by decide)

/-- A trip of a tripped Fuse changes nothing (R340). -/
theorem State.trip_of_fuse {s : State} (h : s.fuse = true) : s.trip = s := by rw [State.trip, ← h]

/-! ### The Fuse (R340, R342) -/

theorem coreMove_fuse {s t : State} (h : coreMove s = .next t) (hf : s.fuse = true) : t.fuse = true := by
  cases hs : s.sched with
  | batch =>
    obtain ⟨u, hu, rfl | rfl⟩ := coreMove_batch_cases hs h
    · rfl
    · exact hu.fuse.trans hf
  | timer => obtain ⟨-, rfl⟩ | ⟨-, rfl⟩ := coreMove_timer_cases hs h <;> exact hf
  | sleep => obtain rfl := Host.Outcome.next.inj ((coreMove_sleep hs).symm.trans h); exact hf
  | exit => obtain rfl := Host.Outcome.next.inj ((coreMove_exit hs).symm.trans h); exact hf

theorem tickMove_fuse (s : State) : (tickMove s).fuse = s.fuse := by
  obtain ⟨-, h⟩ | ⟨-, -, h⟩ | ⟨-, -, h⟩ := tickMove_cases s <;> rw [h]
  rfl

theorem strobeMove_fuse (s : State) : (strobeMove s).fuse = s.fuse := by
  obtain ⟨b, h⟩ := strobeMove_eq s
  rw [h]

theorem snapCaptureMove_fuse (s : State) : (snapCaptureMove s).fuse = s.fuse := by
  unfold snapCaptureMove; split <;> rfl

theorem configureMove_fuse (c : Config) (s : State) : (configureMove c s).fuse = s.fuse := by
  obtain ⟨-, h⟩ | ⟨-, h⟩ := configureMove_cases c s <;> rw [h]

theorem loadMove_fuse (image : List Byte) (s : State) : (loadMove image s).fuse = s.fuse := by
  obtain ⟨-, -, h⟩ | h := loadMove_cases image s <;> rw [h]
  rfl

/-- A move that clears the Fuse is a reset between runs (R342, R370). -/
theorem agentMove_fuse {m : Move} {s t : State} (h : agentMove m s = .next t) (hf : s.fuse = true) :
    t.fuse = true ∨ (m = .reset ∧ (s.run = .unloaded ∨ s.sched = .exit)) := by
  cases m with
  | reset =>
    by_cases hr : s.run = .unloaded ∨ s.sched = .exit
    · exact .inr ⟨rfl, hr⟩
    · obtain rfl := Host.Outcome.next.inj h
      rw [resetMove, if_neg hr]
      exact .inl hf
  | core => exact .inl (coreMove_fuse h hf)
  | tick => obtain rfl := Host.Outcome.next.inj h; exact .inl ((tickMove_fuse s).trans hf)
  | timerTick => obtain rfl := Host.Outcome.next.inj h; exact .inl ((strobeMove_fuse s).trans hf)
  | snapCapture => obtain rfl := Host.Outcome.next.inj h; exact .inl ((snapCaptureMove_fuse s).trans hf)
  | configure c => obtain rfl := Host.Outcome.next.inj h; exact .inl ((configureMove_fuse c s).trans hf)
  | load image => obtain rfl := Host.Outcome.next.inj h; exact .inl ((loadMove_fuse image s).trans hf)
  | trip => obtain rfl := Host.Outcome.next.inj h; exact .inl rfl
  | inputSync | setKey | snapshotRequest => obtain rfl := Host.Outcome.next.inj h; exact .inl hf

/-! ### EXIT (R325) -/

theorem onlyChanges_step_of_exit {s t : State} (hs : s.sched = .exit) (hr : s.run = .halted) (hf : s.fuse = true)
    (hm : s.nextMove ≠ .reset) (h : step s = .next t) : onlyChanges [.snap, .ku, .kp, .agenda] s t := by
  have unchanged : onlyChanges [.snap, .ku, .kp, .agenda] s s.dropMove := (onlyChanges_dropMove s).mono (by decide)
  have disabled (hen : s.nextMove.enabled s = false) : onlyChanges [.snap, .ku, .kp, .agenda] s t := by
    obtain rfl := Host.Outcome.next.inj ((step_of_not_enabled hen).symm.trans h)
    exact unchanged
  cases hn : s.nextMove with
  | core | tick | timerTick | configure | load =>
    exact disabled (by simp [hn, Move.enabled, tickEnabled, strobeEnabled, hs, hr])
  | inputSync k =>
    obtain rfl := Host.Outcome.next.inj ((step_of_nextMove hn).symm.trans h)
    exact (onlyChanges_dropMove_inputSync s k).mono (by decide)
  | snapCapture =>
    obtain rfl := Host.Outcome.next.inj ((step_of_nextMove hn).symm.trans h)
    exact (onlyChanges_dropMove_snapCapture s).mono (by decide)
  | setKey k p =>
    obtain rfl := Host.Outcome.next.inj ((step_of_nextMove hn).symm.trans h)
    exact (onlyChanges_dropMove_setKey s k p).mono (by decide)
  | snapshotRequest =>
    obtain rfl := Host.Outcome.next.inj ((step_of_nextMove hn).symm.trans h)
    exact (onlyChanges_snapshot s s.snap true).mono (by decide)
  | trip =>
    obtain rfl := Host.Outcome.next.inj ((step_of_nextMove hn).symm.trans h)
    rw [State.trip_of_fuse (s := s.dropMove) hf]
    exact unchanged
  | reset => exact absurd hn hm

/-! ### The Scheduler's table (R320, R321, R323) -/

theorem tickMove_of_tripped {s : State} (hen : tickEnabled s = true) (hf : s.fuse = true) :
    tickMove s = s.exitRun := by rw [tickMove, if_pos hen, sleepTransition, if_pos hf]

theorem tickMove_of_untripped {s : State} (hen : tickEnabled s = true) (hf : s.fuse = false) :
    tickMove s = { s with batchLeft := s.cfg.cyclesPerTick, sched := .batch } := by
  rw [tickMove, if_pos hen, sleepTransition, if_neg (Bool.eq_false_iff.1 hf)]

theorem step_of_batch {s u : State} (hs : s.sched = .batch) (hm : s.nextMove = .core)
    (hu : interpStep s.dropMove = .next u) : step s = .next (afterBatchStep s.dropMove u) := by
  have hcore : coreMove s.dropMove = onNext (interpStep s.dropMove) (afterBatchStep s.dropMove) := coreMove_batch hs
  rw [hu, onNext_next] at hcore
  exact (step_of_nextMove hm).trans hcore

/-- A step reports a fault exactly where it leaves RUNNING (R13). -/
theorem stepReport_faulted_iff (s t : State) :
    (∃ c, stepReport s t = .faulted c) ↔ s.run = .running ∧ t.run ≠ .running := by
  refine ⟨fun ⟨c, hc⟩ => ?_, fun ⟨hs, ht⟩ => ⟨_, stepReport_of_halted hs ht⟩⟩
  unfold stepReport at hc
  split at hc
  · cases hc
  · next hs =>
    split at hc
    · next ht => exact ⟨not_not.1 hs, ht⟩
    · split at hc <;> cases hc

/-- After a fault the Scheduler trips the Fuse and exits, and the core is HALTED by the fault itself (R305, R323). -/
theorem afterBatchStep_of_faulted {s u : State} (hu : interpStep s = .next u)
    (hf : s.run = .running ∧ u.run ≠ .running) :
    (afterBatchStep s u).fuse = true ∧ (afterBatchStep s u).sched = .exit ∧ (afterBatchStep s u).run = .halted ∧
      (afterBatchStep s u).batchLeft = u.batchLeft ∧ onlyChanges [.fuse, .sched] u (afterBatchStep s u) := by
  obtain ⟨hs, ht, he⟩ | ⟨hno, -⟩ := afterBatchStep_cases s u
  · have hhalted : u.run = .halted := (interpStep_interpFrame hu).run.resolve_left (hs ▸ ht)
    rw [he]
    exact ⟨rfl, rfl, hhalted, rfl, ((onlyChanges_refl u).trip.setSched .exit u.batchLeft).mono (by decide)⟩
  · exact absurd hf hno

/-- Else one step less is left, and the batch goes on or its timer phase follows (R320, R322). -/
theorem afterBatchStep_of_not_faulted {s u : State} (hf : ¬ (s.run = .running ∧ u.run ≠ .running)) :
    (afterBatchStep s u).batchLeft = u.batchLeft - 1 ∧
      (0 < u.batchLeft - 1 → (afterBatchStep s u).sched = .batch) ∧
      (u.batchLeft - 1 = 0 → (afterBatchStep s u).sched = .timer) ∧ onlyChanges [.sched] u (afterBatchStep s u) := by
  obtain ⟨hs, ht, -⟩ | ⟨-, he⟩ := afterBatchStep_cases s u
  · exact absurd ⟨hs, ht⟩ hf
  · rw [he]
    exact ⟨rfl, fun hpos => if_neg (by omega), fun hz => if_pos hz, (onlyChanges_refl u).setSched _ _⟩

/-- No move but a Core step, a tick, a load or a reset touches the Scheduler's state. -/
theorem agentMove_sched {m : Move} {s t : State} (h : agentMove m s = .next t) (hcore : m ≠ .core) (htick : m ≠ .tick)
    (hreset : m ≠ .reset) (hload : ∀ image, m ≠ .load image) : t.sched = s.sched ∧ t.batchLeft = s.batchLeft := by
  cases m with
  | core => exact absurd rfl hcore
  | tick => exact absurd rfl htick
  | load image => exact absurd rfl (hload image)
  | reset => exact absurd rfl hreset
  | timerTick =>
    obtain rfl := Host.Outcome.next.inj h
    obtain ⟨b, he⟩ := strobeMove_eq s
    rw [he]; exact ⟨rfl, rfl⟩
  | snapCapture =>
    obtain rfl := Host.Outcome.next.inj h
    unfold snapCaptureMove
    split <;> exact ⟨rfl, rfl⟩
  | configure c =>
    obtain rfl := Host.Outcome.next.inj h
    obtain ⟨-, he⟩ | ⟨-, he⟩ := configureMove_cases c s <;> rw [he] <;> exact ⟨rfl, rfl⟩
  | inputSync | setKey | snapshotRequest | trip =>
    obtain rfl := Host.Outcome.next.inj h
    exact ⟨rfl, rfl⟩

/-! ### Strobes and the timer phase (R330, R331) -/

theorem satSub_toNat (a b : Byte) : (satSub a b).toNat = a.toNat - b.toNat := by
  have ha : a.toNat < 256 := a.isLt
  rw [satSub, BitVec.toNat_ofNat, Nat.mod_eq_of_lt (by omega)]

/-- A timer cannot tell a saturated count from the number of strobes. -/
theorem satSub_toNat_of_saturated (a : Byte) {b : Byte} {n : Nat} (hb : b.toNat = min n 255) :
    (satSub a b).toNat = a.toNat - n := by
  have ha : a.toNat < 256 := a.isLt
  rw [satSub_toNat, hb]
  omega

theorem strobeEnabled_eq_false_iff (s : State) : strobeEnabled s = false ↔ s.run ≠ .running ∨ s.sched = .exit := by
  rw [← Bool.not_eq_true, strobeEnabled_iff, not_and_or, not_not]

theorem strobeMove_of_not_enabled {s : State} (h : strobeEnabled s = false) : strobeMove s = s :=
  if_neg (Bool.eq_false_iff.1 h)

theorem strobeMove_of_enabled {s : State} (h : strobeEnabled s = true) :
    strobeMove s = { s with timerPending := BitVec.ofNat 8 (min (s.timerPending.toNat + 1) 255) } := if_pos h

/-- `n` strobes during a run count `n`, up to 255, and change nothing else. -/
theorem strobeMove_iterate {s : State} (h : strobeEnabled s = true) (n : Nat) :
    ∃ b : Byte, b.toNat = min (s.timerPending.toNat + n) 255 ∧ strobeMove^[n] s = { s with timerPending := b } := by
  induction n with
  | zero =>
    have hp : s.timerPending.toNat < 256 := s.timerPending.isLt
    exact ⟨s.timerPending, by omega, rfl⟩
  | succ n ih =>
    obtain ⟨b, hb, he⟩ := ih
    refine ⟨BitVec.ofNat 8 (min (b.toNat + 1) 255), ?_, ?_⟩
    · rw [BitVec.toNat_ofNat, Nat.mod_eq_of_lt (by omega)]
      omega
    · rw [Function.iterate_succ_apply', he]
      exact strobeMove_of_enabled h

end Sys2Proof.Machine

open Sys2Proof Sys2Proof.Machine

/-- Settles O58: every fault is taken by the step that raises it, and no move is refused. -/
theorem everyStepHasANextState : Obligations.EveryStepHasANextState := fun s => agentMove_next s.nextMove s.dropMove

/-- Settles O35: only the move itself is used up. -/
theorem movesNotEnabledChangeNothing : Obligations.MovesNotEnabledChangeNothing := fun s h =>
  ⟨s.dropMove, step_of_not_enabled h, rfl, onlyChanges_dropMove s⟩

/-- Settles O48: each of the six moves writes its own surface. -/
theorem outsideMovesLeaveTheCoreAlone : Obligations.OutsideMovesLeaveTheCoreAlone := by
  intro s t h hm
  obtain hm | ⟨k, hm⟩ | hm | ⟨k, p, hm⟩ | hm | hm := hm
  all_goals obtain rfl := Host.Outcome.next.inj ((step_of_nextMove hm).symm.trans h)
  · exact (onlyChanges_dropMove_strobe s).mono (by decide)
  · exact (onlyChanges_dropMove_inputSync s k).mono (by decide)
  · exact (onlyChanges_dropMove_snapCapture s).mono (by decide)
  · exact (onlyChanges_dropMove_setKey s k p).mono (by decide)
  · exact (onlyChanges_snapshot s s.snap true).mono (by decide)
  · exact (onlyChanges_dropMove s).trip.mono (by decide)

/-- Settles O36: the count of strobes is what the timer phase takes, and a timer cannot tell 255 from more. -/
theorem timerPhaseAppliesEveryStrobe : Obligations.TimerPhaseAppliesEveryStrobe := by
  refine ⟨fun s hm => ⟨_, step_of_nextMove hm, fun hrun => ⟨?_, onlyChanges_dropMove_strobe s⟩, fun hno => ?_⟩,
    fun s n hrun hgo => ?_⟩
  · have hen : strobeEnabled s.dropMove = true := (strobeEnabled_iff s).2 hrun
    obtain ⟨b, hb, he⟩ := strobeMove_iterate hen 1
    exact (congrArg (fun t : State => t.timerPending.toNat) he).trans hb
  · have hdis : strobeEnabled s.dropMove = false := (strobeEnabled_eq_false_iff s).2 hno
    rw [strobeMove_of_not_enabled hdis]
    exact onlyChanges_dropMove s
  · obtain ⟨b, hb, he⟩ := strobeMove_iterate ((strobeEnabled_iff s).2 ⟨hrun, hgo⟩) n
    rw [he]
    exact ⟨satSub_toNat_of_saturated s.dt hb, satSub_toNat_of_saturated s.st hb, rfl, hb,
      (onlyChanges_refl s).setTimerPending b⟩

/-- Settles O37: no move but a reset writes 0 to the Fuse. -/
theorem fuseStaysTripped : Obligations.FuseStaysTripped :=
  ⟨fun s hm => ⟨_, step_of_nextMove hm, rfl, (onlyChanges_dropMove s).trip⟩,
    fun s _ h hf => agentMove_fuse (s := s.dropMove) h hf⟩

/-- Settles O38: in EXIT a move is disabled, or a crossing, or the trip of a tripped Fuse. -/
theorem exitIsTerminal : Obligations.ExitIsTerminal := by
  intro s t hs hexit hm h
  have hhalted := hs.halted.2 hexit
  have hfuse := hs.exitFuse hexit
  have hframe := onlyChanges_step_of_exit hexit hhalted hfuse hm h
  obtain ⟨hsched, -⟩ : t.sched = s.sched ∧ t.batchLeft = s.batchLeft := hframe .sched (by decide)
  have hrun : t.run = s.run := hframe .run (by decide)
  have htrip : t.fuse = s.fuse := hframe .fuse (by decide)
  exact ⟨hsched.trans hexit, hrun.trans hhalted, htrip.trans hfuse, hframe⟩

/-- Settles O34: each row is an equation of the Scheduler's transitions, and a move with no row is not enabled. -/
theorem schedulerFollowsItsTable : Obligations.SchedulerFollowsItsTable := by
  intro s
  have idle (hen : s.nextMove.enabled s = false) : ∃ t, step s = .next t ∧ onlyChanges [.agenda] s t :=
    ⟨_, step_of_not_enabled hen, onlyChanges_dropMove s⟩
  refine ⟨fun hs hr hm hf => ?_, fun hs hr hm hf => ?_, fun hs hm => idle ?_, fun hs hm u hu => ?_, fun hs hm => ?_,
    fun hs hm => idle ?_, fun hs hm => idle ?_, fun hc ht hreset hl t h =>
      agentMove_sched (s := s.dropMove) h hc ht hreset hl⟩
  · have he := tickMove_of_tripped (s := s.dropMove) ((tickEnabled_iff s).2 ⟨hs, hr⟩) hf
    exact ⟨_, (step_of_nextMove hm).trans (congrArg Host.Outcome.next he), rfl, rfl, rfl,
      (onlyChanges_dropMove s).exitRun⟩
  · have he := tickMove_of_untripped (s := s.dropMove) ((tickEnabled_iff s).2 ⟨hs, hr⟩) hf
    exact ⟨_, (step_of_nextMove hm).trans (congrArg Host.Outcome.next he), rfl, rfl,
      (onlyChanges_dropMove s).setSched _ _⟩
  · simp [hm, Move.enabled, hs]
  · refine ⟨afterBatchStep s.dropMove u, step_of_batch hs hm hu, fun hfault => ?_, fun hok => ?_⟩
    · exact afterBatchStep_of_faulted hu ((stepReport_faulted_iff s u).1 hfault)
    · exact afterBatchStep_of_not_faulted ((stepReport_faulted_iff s u).not.1 hok)
  · obtain ⟨t, ht⟩ := coreMove_next s.dropMove
    refine ⟨t, (step_of_nextMove hm).trans ht, ?_⟩
    obtain ⟨hf, rfl⟩ | ⟨hf, rfl⟩ := coreMove_timer_cases (s := s.dropMove) hs ht
    · exact ⟨satSub_toNat _ _, satSub_toNat _ _, rfl, rfl, fun _ => ⟨rfl, rfl⟩,
        fun hno => absurd (hf.symm.trans hno) nofun, (onlyChanges_dropMove s).timerPhase.exitRun.mono (by decide)⟩
    · exact ⟨satSub_toNat _ _, satSub_toNat _ _, rfl, rfl, fun hyes => absurd (hf.symm.trans hyes) nofun,
        fun _ => ⟨rfl, rfl⟩, ((onlyChanges_dropMove s).timerPhase.setSched _ _).mono (by decide)⟩
  · obtain hm | hm := hm <;> simp [hm, Move.enabled, tickEnabled, hs]
  · obtain hs | hs | hs := hs <;> simp [hm, Move.enabled, tickEnabled, hs]
end

section
/-! The end of a tripped run (spec/60_exceptions.md R343): every enabled Core step brings it nearer and no other move takes
it back. With no move listed, what lies before the tick in SLEEP is the crossings that wait and one strobe. -/

namespace Sys2Proof.Machine

/-! ### Core steps left, under every interleaving -/

theorem State.coreStepsToExit_eq_zero_iff (s : State) : s.coreStepsToExit = 0 ↔ s.sched = .exit := by
  unfold State.coreStepsToExit
  cases s.sched <;> simp

theorem State.coreStepsToExit_congr {s t : State} (hs : t.sched = s.sched) (hb : t.batchLeft = s.batchLeft) :
    t.coreStepsToExit = s.coreStepsToExit := by
  unfold State.coreStepsToExit; rw [hs, hb]

theorem State.Inv.coreStepsToExit_le {s : State} (h : s.Inv) : s.coreStepsToExit ≤ s.cfg.cyclesPerTick + 1 := by
  have hb := h.batchBound
  unfold State.coreStepsToExit
  cases s.sched <;> dsimp only <;> omega

/-- Out of EXIT an enabled Core step is the Core's own move (R320, R321). -/
theorem State.coreStepNext_iff {s : State} (hs : s.sched ≠ .exit) : s.coreStepNext ↔ s.nextMove = s.ownCoreMove := by
  unfold State.coreStepNext State.ownCoreMove
  cases hc : s.sched <;> simp_all

/-- The Core's own move in a tripped run leaves fewer Core steps, and it never leads to SLEEP: the Fuse check after the
timer phase sees the trip (R324). -/
theorem ownCoreMove_lowers {s t : State} (hs : s.TrippedRun) (hopen : s.sched = .batch → 0 < s.batchLeft)
    (h : agentMove s.ownCoreMove s = .next t) : t.sched ≠ .sleep ∧ t.coreStepsToExit < s.coreStepsToExit := by
  obtain ⟨hr, hf, hgo⟩ := hs
  cases hc : s.sched with
  | exit => exact absurd hc hgo
  | sleep =>
    rw [State.ownCoreMove_sleep hc] at h
    have he := tickMove_of_tripped ((tickEnabled_iff s).2 ⟨hc, hr⟩) hf
    obtain rfl := Host.Outcome.next.inj ((congrArg Host.Outcome.next he).symm.trans h)
    simp [State.coreStepsToExit, hc]
  | timer =>
    rw [State.ownCoreMove_awake (by simp [hc])] at h
    obtain ⟨-, rfl⟩ | ⟨hno, -⟩ := coreMove_timer_cases hc h
    · simp [State.coreStepsToExit, hc]
    · exact absurd (hf.symm.trans hno) nofun
  | batch =>
    have hpos := hopen hc
    rw [State.ownCoreMove_awake (by simp [hc])] at h
    obtain ⟨u, -, rfl | rfl⟩ := coreMove_batch_cases hc h
    · simp [State.coreStepsToExit, hc]
    · by_cases hlast : s.batchLeft - 1 = 0 <;> simp [State.coreStepsToExit, hc, hlast, hpos]

/-- A step of a tripped run: a Core step leaves fewer, any other move leaves the Scheduler where it is. -/
theorem step_of_tripped {s t : State} (hs : s.Inv) (hr : s.run ≠ .unloaded) (hf : s.fuse = true)
    (hm : s.nextMove ≠ .reset) (h : step s = .next t) :
    (t.run ≠ .unloaded ∧ t.fuse = true) ∧
      ((s.coreStepNext ∧ t.sched ≠ .sleep ∧ t.coreStepsToExit < s.coreStepsToExit) ∨
       (¬ s.coreStepNext ∧ t.sched = s.sched ∧ t.batchLeft = s.batchLeft)) := by
  by_cases hexit : s.sched = .exit
  · obtain ⟨-, hhalted, htrip, hframe⟩ := exitIsTerminal s t hs hexit hm h
    exact ⟨⟨by simp [hhalted], htrip⟩, .inr ⟨by simp [State.coreStepNext, hexit], hframe .sched (by decide)⟩⟩
  · have hgo : s.dropMove.TrippedRun := ⟨hr, hf, hexit⟩
    by_cases hown : s.nextMove = s.ownCoreMove
    · have hmove : agentMove s.dropMove.ownCoreMove s.dropMove = .next t := (step_of_nextMove hown).symm.trans h
      obtain ⟨hr', hf', -⟩ := ownCoreMove_nearer hgo hmove
      have hlowers := ownCoreMove_lowers (s := s.dropMove) hgo hs.batchOpen hmove
      exact ⟨⟨hr', hf'⟩, .inl ⟨(State.coreStepNext_iff hexit).2 hown, hlowers⟩⟩
    · obtain ⟨⟨hr', hf', -⟩, hkeep⟩ := otherMove_keeps_trippedRun hgo hown h
      exact ⟨⟨hr', hf'⟩, .inr ⟨mt (State.coreStepNext_iff hexit).1 hown, hkeep⟩⟩

/-! ### Moves left, in the default order (log 2) -/

/-- The moves that can come before the tick in SLEEP: the crossings that wait, and a strobe where none is pending. -/
def State.movesBeforeTick (s : State) : Nat := s.crossingsLeft + if s.timerPending = 0#8 then 1 else 0

/-- The moves that a tripped run with no move listed makes before EXIT, at most. -/
def State.movesToExit (s : State) : Nat := s.coreStepsToExit + if s.sched = .sleep then s.movesBeforeTick else 0

theorem State.crossingsLeft_le (s : State) : s.crossingsLeft ≤ 17 := by
  have hkeys := Finset.card_filter_le (Finset.range 16) fun j => s.ku.getLsbD j ≠ s.kp.getLsbD j
  have hsnap := s.snapReq.toNat_le
  rw [Finset.card_range] at hkeys
  unfold State.crossingsLeft
  omega

theorem State.movesBeforeTick_le (s : State) : s.movesBeforeTick ≤ 18 := by
  have hcross := s.crossingsLeft_le
  unfold State.movesBeforeTick
  split <;> omega

/-- In SLEEP a single Core step is left, so the moves before it have room beside a batch of one step. -/
theorem State.Inv.movesToExit_le {s : State} (h : s.Inv) (hr : s.run ≠ .unloaded) :
    s.movesToExit ≤ s.cfg.cyclesPerTick + 18 := by
  have hpos := configValid_cyclesPerTick (h.configured hr)
  have hsteps := h.coreStepsToExit_le
  have hmoves := s.movesBeforeTick_le
  unfold State.movesToExit
  split
  · next hs =>
    have hone : s.coreStepsToExit = 1 := by rw [State.coreStepsToExit, hs]
    omega
  · omega

theorem State.defaultMove_ne_reset (s : State) : s.defaultMove ≠ .reset := by
  have hcross (m : Move) (hm : m ≠ .reset) : s.waitingCrossing.getD m ≠ .reset := by
    obtain ⟨-, he⟩ | ⟨k, he, -⟩ | ⟨he, -⟩ := s.waitingCrossing_cases <;> rw [he]
    · nofun
    · nofun
    · exact hm
  cases hs : s.sched with
  | batch => rw [State.defaultMove_batch hs]; nofun
  | timer => rw [State.defaultMove_timer hs]; nofun
  | sleep =>
    rw [State.defaultMove_sleep hs]
    refine hcross _ ?_
    obtain ⟨-, -, hm⟩ | ⟨-, hm⟩ := s.sleepMove_cases <;> rw [hm] <;> nofun
  | exit => rw [State.defaultMove_exit hs]; exact hcross _ nofun

/-- A crossing in SLEEP leaves one move less before the tick. -/
theorem crossing_lowers_movesBeforeTick {s t : State} {m : Move} (hs : s.sched = .sleep)
    (hm : s.waitingCrossing = some m) (h : agentMove m s = .next t) : t.movesBeforeTick < s.movesBeforeTick := by
  obtain ⟨hrank, hsched, hpending⟩ := crossing_settles hm h
  simp only [State.settleRank, State.schedRank, hsched, hs] at hrank
  rw [State.movesBeforeTick, State.movesBeforeTick, hpending]
  omega

/-- A strobe that counts leaves none to come before the tick. -/
theorem strobe_lowers_movesBeforeTick {s : State} (hen : strobeEnabled s = true) (hz : s.timerPending = 0#8) :
    (strobeMove s).movesBeforeTick < s.movesBeforeTick := by
  have hcross := (strobeMove_keepsCrossings s).crossingsLeft
  have hone : (strobeMove s).timerPending = 1#8 := by rw [strobeMove_of_enabled hen, hz]; rfl
  rw [State.movesBeforeTick, State.movesBeforeTick, hcross, hone, hz]
  simp

/-- In SLEEP, with no move listed, the tick comes or one move less is left before it. -/
theorem sleeping_step_nearer {s t : State} (ha : s.env.agenda = []) (hs : s.sched = .sleep) (h : step s = .next t) :
    s.nextMove = .tick ∨ t.movesBeforeTick < s.movesBeforeTick := by
  have hm := State.nextMove_of_agenda_nil ha
  rw [State.defaultMove_sleep hs] at hm
  cases hw : s.waitingCrossing with
  | some m =>
    rw [hw] at hm
    exact .inr (crossing_lowers_movesBeforeTick (s := s.dropMove) hs hw ((step_of_nextMove hm).symm.trans h))
  | none =>
    rw [hw] at hm
    obtain ⟨hen, hz, he⟩ | ⟨-, he⟩ := s.sleepMove_cases
    · obtain rfl := Host.Outcome.next.inj ((step_of_nextMove (hm.trans he)).symm.trans h)
      exact .inr (strobe_lowers_movesBeforeTick (s := s.dropMove) hen hz)
    · exact .inl (hm.trans he)

/-- A legal state of a run with its Fuse tripped and no move listed. -/
structure State.TrippedAlone (s : State) : Prop where
  inv     : s.Inv
  loaded  : s.run ≠ .unloaded
  tripped : s.fuse = true
  alone   : s.env.agenda = []

theorem State.TrippedAlone.nextMove_ne_reset {s : State} (h : s.TrippedAlone) : s.nextMove ≠ .reset := by
  rw [State.nextMove_of_agenda_nil h.alone]
  exact s.defaultMove_ne_reset

/-- Where no Core step comes, the run sleeps or has ended. -/
theorem State.TrippedAlone.resting {s : State} (h : s.TrippedAlone) (hno : ¬ s.coreStepNext) :
    s.sched = .sleep ∨ s.sched = .exit := by
  have hm := State.nextMove_of_agenda_nil h.alone
  cases hs : s.sched with
  | batch => exact absurd (.inl ⟨hm.trans (State.defaultMove_batch hs), .inl hs⟩) hno
  | timer => exact absurd (.inl ⟨hm.trans (State.defaultMove_timer hs), .inr hs⟩) hno
  | sleep => exact .inl rfl
  | exit => exact .inr rfl

/-- Each step leaves one move less before EXIT, and none after it. -/
theorem State.TrippedAlone.step {s t : State} (hs : s.TrippedAlone) (h : step s = .next t) :
    t.TrippedAlone ∧ t.movesToExit ≤ s.movesToExit - 1 := by
  obtain ⟨⟨hr, hf⟩, hcases⟩ := step_of_tripped hs.inv hs.loaded hs.tripped hs.nextMove_ne_reset h
  refine ⟨⟨everyStepKeepsTheInvariant s t hs.inv h, hr, hf, by rw [step_agenda h, hs.alone]; rfl⟩, ?_⟩
  unfold State.movesToExit
  obtain ⟨-, hawake, hlt⟩ | ⟨hno, hsched, hb⟩ := hcases
  · rw [if_neg hawake]
    omega
  · have hsteps := State.coreStepsToExit_congr hsched hb
    obtain hsl | hexit := hs.resting hno
    · obtain htick | hlt := sleeping_step_nearer hs.alone hsl h
      · exact absurd (.inr ⟨htick, hsl⟩) hno
      · rw [if_pos (hsched.trans hsl), if_pos hsl]
        omega
    · have hzero := (State.coreStepsToExit_eq_zero_iff s).2 hexit
      rw [if_neg (by simp [hsched, hexit]), hsteps, hzero]
      omega

/-- A run of the machine is one step and then the rest. -/
theorem run_succ {s t : State} (h : step s = .next t) (k : Nat) :
    Host.Core.run Sys2Proof.core (k + 1) s = Host.Core.run Sys2Proof.core k t := by
  have hstep : Sys2Proof.core.step s = .next t := h
  simp only [Host.Core.run, hstep]

/-- In as many moves as are left at most, the run has ended: by induction on their number. -/
theorem State.TrippedAlone.run_ends {k : Nat} {s : State} (hs : s.TrippedAlone) (hk : s.movesToExit ≤ k) :
    ∃ t, Host.Core.run Sys2Proof.core k s = .next t ∧ t.TrippedAlone ∧ t.sched = .exit := by
  induction k generalizing s with
  | zero =>
    have hzero : s.coreStepsToExit = 0 := by unfold State.movesToExit at hk; omega
    exact ⟨s, rfl, hs, s.coreStepsToExit_eq_zero_iff.1 hzero⟩
  | succ k ih =>
    obtain ⟨t, ht⟩ := agentMove_next s.nextMove s.dropMove
    obtain ⟨hs', hlt⟩ := hs.step ht
    rw [run_succ ht]
    exact ih hs' (by omega)

end Sys2Proof.Machine

open Sys2Proof.Machine

/-- Settles O40: the Core's own move leaves fewer Core steps, and every other leaves the Scheduler where it is. -/
theorem tripBoundsTheCoreStepsLeft : Obligations.TripBoundsTheCoreStepsLeft := by
  intro s hs hr hf hm
  obtain ⟨t, h⟩ := everyStepHasANextState s
  obtain ⟨⟨-, hf'⟩, hcases⟩ := step_of_tripped hs hr hf hm h
  refine ⟨hs.coreStepsToExit_le, s.coreStepsToExit_eq_zero_iff, t, h, hf', ?_⟩
  obtain ⟨-, -, hlt⟩ | ⟨hno, hsched, hb⟩ := hcases
  · exact ⟨hlt.le, fun _ => hlt⟩
  · exact ⟨(State.coreStepsToExit_congr hsched hb).le, fun hyes => absurd hyes hno⟩

/-- Settles O39: each move leaves one less before EXIT, and a legal state has at most `CYCLES_PER_TICK` + 18. -/
theorem tripEndsTheRunWithinOneTick : Obligations.TripEndsTheRunWithinOneTick := by
  intro s hs hr hf ha
  have hstart : s.TrippedAlone := ⟨hs, hr, hf, ha⟩
  obtain ⟨t, ht, ⟨hinv, -, hf', -⟩, hexit⟩ := hstart.run_ends (hs.movesToExit_le hr)
  exact ⟨t, ht, hexit, hinv.halted.2 hexit, hf'⟩
end

section
/-! Loading a program (spec/70_reset_and_hazards.md R371 to R373): what `Load` answers, what a loaded memory holds, and the
two moves from reset that bring the Core to the image's first instruction. -/

namespace Sys2Proof.Machine

/-! ### The answer of `Load` (R371, R373) -/

theorem configValid_iff (c : Config) : configValid c = true ↔
    1 ≤ c.cyclesPerTick ∧ 1 ≤ c.stackDepth ∧ 0 < c.cpuFreqHz ∧ 0 < c.timerHz ∧ c.fontBase + 79 ≤ 0x1FF := by
  simp only [configValid, Bool.and_eq_true, decide_eq_true_eq, and_assoc]

theorem loadReply_of_invalid {c : Config} (h : configValid c = false) (image : List Byte) :
    loadReply c image = .badConfig := if_pos h

/-- Under a valid configuration only the size of the image is checked. -/
theorem loadReply_of_valid {c : Config} (h : configValid c = true) (image : List Byte) :
    loadReply c image =
      if image.length = 0 then .empty else if 0xE00 < image.length then .oversized else .ok :=
  if_neg (by simp [h])

theorem loadReply_of_fits {c : Config} {image : List Byte} (hc : configValid c = true) (hpos : 1 ≤ image.length)
    (hfits : image.length ≤ 0xE00) : loadReply c image = .ok := by
  rw [loadReply_of_valid hc, if_neg (by omega), if_neg (by omega)]

theorem loadMove_of_ok {s : State} {image : List Byte} (hr : s.run = .unloaded) (hok : loadReply s.cfg image = .ok) :
    loadMove image s = loadImage image s := by simp only [loadMove, hr, hok]

theorem loadMove_of_not_ok {s : State} {image : List Byte} (h : s.run ≠ .unloaded ∨ loadReply s.cfg image ≠ .ok) :
    loadMove image s = s := by
  obtain ⟨hr, hok, -⟩ | he := loadMove_cases image s
  · exact absurd h (by simp [hr, hok])
  · exact he

/-- A load that is accepted and answers ok is `LoadImage`. -/
theorem step_of_load_ok {s : State} {image : List Byte} (hm : s.nextMove = .load image) (hr : s.run = .unloaded)
    (hok : loadReply s.cfg image = .ok) : step s = .next (loadImage image s.dropMove) :=
  (step_of_nextMove hm).trans (congrArg Host.Outcome.next (loadMove_of_ok (s := s.dropMove) hr hok))

/-! ### The loaded memory (R257, R372) -/

/-- The font as R257's table lists it: one number a digit, its five bytes from the highest down. -/
def fontRows : List (BitVec 40) :=
  [0xF0909090F0#40, 0x2060202070#40, 0xF010F080F0#40, 0xF010F010F0#40] ++
  [0x9090F01010#40, 0xF080F010F0#40, 0xF080F090F0#40, 0xF010204040#40] ++
  [0xF090F090F0#40, 0xF090F010F0#40, 0xF090F09090#40, 0xE090E090E0#40] ++
  [0xF0808080F0#40, 0xE0909090E0#40, 0xF080F080F0#40, 0xF080F08080#40]

/-- Byte `j` of digit `d` in the font is that byte of the digit's row: 80 bytes, each compared. -/
theorem font_getD_digit : ∀ d, d < 16 → ∀ j, j < 5 →
    font.getD (5 * d + j) 0#8 = (fontRows.getD d 0#40).extractLsb' (8 * (4 - j)) 8 := by decide

theorem font_length : font.length = 80 := rfl

section loaded
variable {c : Config} {image : List Byte} (hfits : image.length ≤ 0xE00)
include hfits

theorem Memory.get_loadedMemory_image {j : Nat} (hj : j < image.length) :
    Memory.get (loadedMemory c image) (0x200 + j) = image.getD j 0#8 :=
  Memory.get_writeBytes_inside (Memory.wf_writeBytes Memory.wf_nil _ _) (by omega) hj

variable (hc : c.fontBase + 79 ≤ 0x1FF)
include hc

/-- Outside the image the font is all that has been written. -/
theorem Memory.get_loadedMemory_outside {a : Nat} (ha : ¬(0x200 ≤ a ∧ a < 0x200 + image.length)) :
    Memory.get (loadedMemory c image) a =
      if c.fontBase ≤ a ∧ a < c.fontBase + 80 then font.getD (a - c.fontBase) 0#8 else 0#8 := by
  rw [loadedMemory, Memory.get_writeBytes (Memory.wf_writeBytes Memory.wf_nil _ _) (by omega), if_neg ha,
    Memory.get_writeBytes Memory.wf_nil (by rw [font_length]; omega), font_length]
  rfl

/-- The font ends below the image, so the image leaves it whole. -/
theorem Memory.get_loadedMemory_font {j : Nat} (hj : j < 80) :
    Memory.get (loadedMemory c image) (c.fontBase + j) = font.getD j 0#8 := by
  rw [Memory.get_loadedMemory_outside hfits hc (by omega), if_pos (by omega), Nat.add_sub_cancel_left]

theorem Memory.get_loadedMemory_digit {d j : Nat} (hd : d < 16) (hj : j < 5) :
    Memory.get (loadedMemory c image) (c.fontBase + 5 * d + j) =
      (fontRows.getD d 0#40).extractLsb' (8 * (4 - j)) 8 := by
  rw [Nat.add_assoc, Memory.get_loadedMemory_font hfits hc (by omega), font_getD_digit d hd j hj]

theorem Memory.get_loadedMemory_elsewhere {a : Nat} (hfont : ¬(c.fontBase ≤ a ∧ a < c.fontBase + 80))
    (himage : ¬(0x200 ≤ a ∧ a < 0x200 + image.length)) : Memory.get (loadedMemory c image) a = 0#8 := by
  rw [Memory.get_loadedMemory_outside hfits hc himage, if_neg hfont]

end loaded

/-- A load leaves the image at 0x200 (R372). -/
theorem readByte_loadImage {image : List Byte} (hfits : image.length ≤ 0xE00) {s : State} {j : Nat}
    (hj : j < image.length) : (loadImage image s).readByte (0x200 + j) = image.getD j 0#8 :=
  Memory.get_loadedMemory_image hfits hj

/-! ### From reset to the first fetch (R320, R371, R372) -/

/-- Bytes that decode begin with the two bytes of a valid word (R110). -/
theorem decode_eq_ok {bytes rest : List Byte} {i : Instr} (h : decode bytes = .ok (i, rest)) :
    ∃ hi lo, bytes = hi :: lo :: rest ∧ decodeWord (wordOfBytes hi lo) = .ok i := by
  match bytes with
  | [] | [_] => exact nomatch h
  | hi :: lo :: tail =>
    rw [decode_bytes] at h
    cases hw : decodeWord (wordOfBytes hi lo) with
    | ok k =>
      rw [hw] at h
      cases h
      exact ⟨hi, lo, rfl, hw⟩
    | reject r =>
      rw [hw] at h
      cases h

/-- The state a tick makes of a loaded one: its batch is open, with every step left (R320). -/
def State.batchOpened (s : State) : State := { s with batchLeft := s.cfg.cyclesPerTick, sched := .batch }

@[simp] theorem State.fetchedWord_batchOpened (s : State) : s.batchOpened.fetchedWord = s.fetchedWord := rfl

/-- A tick opens the batch of a run that sleeps with its Fuse untripped (R320). -/
theorem step_of_tick {s : State} (hm : s.nextMove = .tick) (hs : s.sched = .sleep) (hr : s.run ≠ .unloaded)
    (hf : s.fuse = false) : step s = .next s.dropMove.batchOpened :=
  (step_of_nextMove hm).trans <|
    congrArg Host.Outcome.next (tickMove_of_untripped ((tickEnabled_iff s.dropMove).2 ⟨hs, hr⟩) hf)

/-- At 0x200 the fetch checks pass, whatever the odd-PC policy. -/
theorem State.fetchFault_of_start {s : State} (h : s.pc = 0x200#16) : s.fetchFault = none := by
  rw [State.fetchFault, h]; rfl

/-- The word at 0x200, its bytes at the offsets of the image's first two. -/
theorem State.fetchedWord_of_start {s : State} (h : s.pc = 0x200#16) :
    s.fetchedWord = wordOfBytes (s.readByte (0x200 + 0)) (s.readByte (0x200 + 1)) := by
  rw [State.fetchedWord, h]; rfl

/-- The word at `PC` after a load is the first of the image. -/
theorem fetchedWord_loadImage {hi lo : Byte} {rest : List Byte} (hfits : (hi :: lo :: rest).length ≤ 0xE00) (s : State) :
    (loadImage (hi :: lo :: rest) s).fetchedWord = wordOfBytes hi lo := by
  rw [State.fetchedWord_of_start rfl, readByte_loadImage hfits (by simp), readByte_loadImage hfits (by simp)]
  rfl

/-- From reset with `moves` to come. -/
def State.resetWith (moves : List Move) : State :=
  { State.reset with env := { agenda := moves, answers := [], draws := 0 } }

/-- The state two moves after reset, a load and a tick, with `moves` to come. -/
def State.loadedAndTicked (image : List Byte) (moves : List Move) : State :=
  (loadImage image (State.resetWith moves)).batchOpened

/-- A load that answers ok and the tick after it, from reset. -/
theorem run_load_tick {image : List Byte} (hok : loadReply Config.reference image = .ok) (moves : List Move) :
    Host.Core.run Sys2Proof.core 2 (State.resetWith (.load image :: .tick :: moves)) =
      .next (State.loadedAndTicked image moves) := by
  have hload : step (State.resetWith (.load image :: .tick :: moves)) =
      .next (loadImage image (State.resetWith (.tick :: moves))) := step_of_load_ok rfl rfl hok
  have htick : step (loadImage image (State.resetWith (.tick :: moves))) =
      .next (State.loadedAndTicked image moves) := step_of_tick rfl rfl nofun rfl
  rw [run_succ hload, run_succ htick]
  rfl

end Sys2Proof.Machine

open Sys2Proof Sys2Proof.Machine

/-- Settles O51: `Load` answers by its checks in order, and only an ok answer while UNLOADED is `LoadImage`. -/
theorem rejectedLoadsChangeNothing : Obligations.RejectedLoadsChangeNothing := by
  refine ⟨fun c image => ⟨fun hbad => ?_, fun hcyc hstk hcpu htim hfont => ?_⟩, fun s image hm => ⟨fun hno => ?_, ?_⟩⟩
  · exact loadReply_of_invalid (Bool.eq_false_iff.2 (mt (configValid_iff c).1 hbad)) image
  · have hc := (configValid_iff c).2 ⟨hcyc, hstk, hcpu, htim, hfont⟩
    refine ⟨fun hempty => ?_, fun hover => ?_, loadReply_of_fits hc⟩
    · rw [loadReply_of_valid hc, if_pos hempty]
    · rw [loadReply_of_valid hc, if_neg (by omega), if_pos hover]
  · have he := loadMove_of_not_ok (s := s.dropMove) hno
    exact ⟨_, (step_of_nextMove hm).trans (congrArg Host.Outcome.next he), onlyChanges_dropMove s⟩
  · exact step_of_load_ok hm

/-- Settles O50: the bytes are read back from the two writes of a load, and the other elements are what it sets. -/
theorem loadSetsTheWholeMachine : Obligations.LoadSetsTheWholeMachine := by
  intro s image hm hr hc hpos hfits
  obtain ⟨-, -, -, -, hfont⟩ := (configValid_iff s.cfg).1 hc
  exact ⟨_, step_of_load_ok hm hr (loadReply_of_fits hc hpos hfits),
    fun d j hd hj => Memory.get_loadedMemory_digit hfits hfont hd hj, fun j hj => readByte_loadImage hfits hj,
    fun a ha himage => Memory.get_loadedMemory_elsewhere hfits hfont ha himage,
    fun r => Vector.getElem_replicate r.isLt, rfl, rfl, rfl, rfl, rfl, rfl, rfl, rfl, Frame.pixel_blank, rfl, rfl, rfl,
    rfl, rfl, rfl, rfl, ⟨rfl, rfl⟩, rfl, rfl, ⟨rfl, rfl⟩⟩

/-- Settles O54: the load puts the image's first word at `PC`, and the tick opens the batch that fetches it. -/
theorem loadedImageIsFetchedFirst : Obligations.LoadedImageIsFetchedFirst := by
  intro image rest i hfits hdecode
  obtain ⟨hi, lo, rfl, hword⟩ := decode_eq_ok hdecode
  have hok := loadReply_of_fits (show configValid Config.reference = true by decide) (by simp) hfits
  refine ⟨_, run_load_tick hok [.core], ⟨rfl, rfl, rfl, rfl, State.fetchFault_of_start rfl⟩,
    (decode_fetchBytes_ok _ i).2 ?_, rfl, rfl, rfl⟩
  rw [State.loadedAndTicked, State.fetchedWord_batchOpened, fetchedWord_loadImage hfits, hword]
end
